-- ==== Sys2Proof/Word.lean ====
section
/-! DEFINITION. The word types of the block: 00_scope.md R9 gives every width. -/

namespace Sys2Proof

/-- One byte of a stream or a storage (R9, R10). -/
abbrev Byte := BitVec 8

/-- An index, offset or count register (R9). -/
abbrev Half := BitVec 16

/-- The throttle counter (R9, R38). -/
abbrev Count32 := BitVec 32

end Sys2Proof
end

