-- ==== Sys2Proof/Config.lean ====
section
/-! DEFINITION. The parameters of 00_scope.md R6, the input ports of 10_state.md R22, and the free values: what
the spec leaves OPEN. -/

namespace Sys2Proof

/-- ADDR_POLICY (R6): what a destination token above 0xFFFF means (R127). -/
inductive AddrPolicy where
  | reject
  | wrap
  deriving DecidableEq, Repr

/-- The elaboration-time parameters of R6. THROTTLE_CYCLES is 32 bits wide, so its bound of R8 holds by type. -/
structure Config where
  /-- CHUNK_SIZE: the longest frame, trailer included. -/
  chunkSize : Nat
  /-- LBUF_BYTES: the line buffer's capacity. -/
  lbufBytes : Nat
  /-- FIFO_DEPTH: the entries of the frame FIFO. -/
  fifoDepth : Nat
  /-- THROTTLE_CYCLES: the throttle interval in clock cycles. -/
  throttleCycles : Count32
  /-- CLK_HZ: the clock frequency; no rule reads it. -/
  clkHz : Nat
  addrPolicy : AddrPolicy
  deriving DecidableEq, Repr

/-- THROTTLE_CYCLES is OPEN (R6, 92_eei_decisions.md D18): a free value (log 5). -/
opaque Config.openThrottle : Count32

/-- CLK_HZ is OPEN (R6, D18): a free value (log 5). -/
opaque Config.openClkHz : Nat

/-- The defaults of R6, with the two OPEN parameters left free. -/
def Config.default : Config where
  chunkSize := 51
  lbufBytes := 1024
  fifoDepth := 32
  throttleCycles := Config.openThrottle
  clkHz := Config.openClkHz
  addrPolicy := .reject

/-- The input ports of R22 other than `clk`, as sampled at one rising edge (R330). -/
structure Pins where
  rst : Bool
  cancel : Bool
  aErr : Bool
  bErr : Bool
  aRxValid : Bool
  aRxData : Byte
  aTxReady : Bool
  bRxValid : Bool
  bRxData : Byte
  bTxReady : Bool
  deriving DecidableEq, Repr, Inhabited

/-- The input ports at an edge past the end of the given stimuli: a free value for each clock cycle (log 2). -/
opaque Config.freePins : Nat → Pins

/-- Every input 0: no reset, no stop, no byte offered, no sink ready. -/
def Pins.quiet : Pins where
  rst := false
  cancel := false
  aErr := false
  bErr := false
  aRxValid := false
  aRxData := 0
  aTxReady := false
  bRxValid := false
  bRxData := 0
  bTxReady := false

end Sys2Proof
end

