-- ==== Sys2Proof/Syntax.lean ====
section
/-! DEFINITION. The operations of spec/opcode_table.json, one constructor per row, and their operands. -/

namespace Sys2Proof

/-- A FIFO entry (R36): the frame's length and CHUNK_SIZE bytes, of which the first `len` are the frame. -/
structure Frame where
  len : Half
  data : List Byte
  deriving DecidableEq, Repr

/-- TERM, the byte that ends a line (R90, R93). -/
def termByte : Byte := 0x0A

/-- The prefix "DATA:" of a command line (R91, R95). -/
def cmdPfx : List Byte := [0x44, 0x41, 0x54, 0x41, 0x3A]

/-- The prefix "RETURN:" of a reply line (R92, R95). -/
def repPfx : List Byte := [0x52, 0x45, 0x54, 0x55, 0x52, 0x4E, 0x3A]

/-- The operations the block recognises (R2, R106): line kinds, scheduler operations, FIFO operations. -/
inductive Instr where
  /-- CMD_DATA (R120): a LINK-A line whose content is the DATA prefix followed by `body`. -/
  | cmdData (body : List Byte)
  /-- LINE_OTHER_A (R121): any other LINK-A line. -/
  | lineOtherA (content : List Byte)
  /-- REPLY_RETURN (R210): a LINK-B line whose content is the RETURN prefix followed by `body`. -/
  | replyReturn (body : List Byte)
  /-- LINE_OTHER_B (R211): any other LINK-B line. -/
  | lineOtherB (content : List Byte)
  /-- S_POLL_A (R244). -/
  | sPollA
  /-- S_RX_A (R246). -/
  | sRxA
  /-- S_ENC (R247, R170). -/
  | sEnc
  /-- S_POLL_Q (R248). -/
  | sPollQ
  /-- S_TX_B (R249). -/
  | sTxB
  /-- S_THROTTLE (R250). -/
  | sThrottle
  /-- S_POLL_B (R251). -/
  | sPollB
  /-- S_RX_B (R252). -/
  | sRxB
  /-- S_TX_A (R253). -/
  | sTxA
  /-- S_STOP_CLEAN (R296). -/
  | sStopClean
  /-- S_STOP_ERROR (R297). -/
  | sStopError
  /-- FIFO_PUSH (R190) of the frame on the push port. -/
  | fifoPush (f : Frame)
  /-- FIFO_POP (R191). -/
  | fifoPop
  /-- FIFO_PUSHPOP (R192) of the frame on the push port. -/
  | fifoPushPop (f : Frame)
  deriving DecidableEq, Repr

/-- The content of the line an instruction stands for (R90); empty for the instructions that are no lines. -/
def Instr.content : Instr → List Byte
  | .cmdData body => cmdPfx ++ body
  | .lineOtherA c => c
  | .replyReturn body => repPfx ++ body
  | .lineOtherB c => c
  | .sPollA | .sRxA | .sEnc | .sPollQ | .sTxB | .sThrottle | .sPollB | .sRxB | .sTxA | .sStopClean | .sStopError => []
  | .fifoPush _ | .fifoPop | .fifoPushPop _ => []

/-- The instructions of the line level (R106). -/
def Instr.isLine : Instr → Bool
  | .cmdData _ | .lineOtherA _ | .replyReturn _ | .lineOtherB _ => true
  | .sPollA | .sRxA | .sEnc | .sPollQ | .sTxB | .sThrottle | .sPollB | .sRxB | .sTxA | .sStopClean | .sStopError => false
  | .fifoPush _ | .fifoPop | .fifoPushPop _ => false

end Sys2Proof
end

