-- ==== Sys2Proof/WellFormed.lean ====
section
/-! DEFINITION. When an instruction's operands are ones the spec gives the instruction. -/

namespace Sys2Proof

/-- A frame as R36 and R190 bound it: `2 <= len <= CHUNK_SIZE`, and CHUNK_SIZE bytes of data. -/
def Frame.wf (c : Config) (f : Frame) : Bool :=
  decide (2 ≤ f.len.toNat ∧ f.len.toNat ≤ c.chunkSize ∧ f.data.length = c.chunkSize)

/-- A line's content holds no terminator (R90). -/
def lineWf (content : List Byte) : Bool :=
  content.all (fun b => b != termByte)

/-- Well-formedness of an instruction. A body or content holds no 0x0A; a non-matching line does not begin with its
link's prefix (R121, R211); a pushed frame has the lengths of R190. -/
def Instr.wf (c : Config) : Instr → Bool
  | .cmdData body => lineWf body
  | .lineOtherA content => lineWf content && decide (content.take 5 ≠ cmdPfx)
  | .replyReturn body => lineWf body
  | .lineOtherB content => lineWf content && decide (content.take 7 ≠ repPfx)
  | .sPollA | .sRxA | .sEnc | .sPollQ | .sTxB | .sThrottle | .sPollB | .sRxB | .sTxA | .sStopClean | .sStopError => true
  | .fifoPush f => f.wf c
  | .fifoPop => true
  | .fifoPushPop f => f.wf c

end Sys2Proof
end

