-- ==== Sys2Proof/Decode.lean ====
section
/-! DEFINITION. The three encodings of 30_encoding.md (lines R90 to R98, scheduler codes R100, FIFO control R108):
a total decoder that rejects by name, the encoder, and the host's reading of a table word. -/

namespace Sys2Proof

/-- What the block is told an operation by (R106): the bytes a link offers, the scheduler state code, or the FIFO's
control lines with the frame on the push port. -/
inductive Code where
  | lineA (bytes : List Byte)
  | lineB (bytes : List Byte)
  | sched (st : BitVec 4)
  | fifo (pushPop : BitVec 2) (din : Frame)
  deriving DecidableEq, Repr

/-- Why a code names no operation. -/
inductive DecodeError where
  /-- No 0x0A among the bytes offered: the line has not ended (R90). -/
  | unterminated
  /-- A scheduler code in 0xB..0xF (R105, R254). -/
  | reservedState
  /-- The FIFO control value 0b00, idle (R108): no operation. -/
  | fifoIdle
  deriving DecidableEq, Repr

/-- The first line of `bytes` (R90): its content, and the bytes after its terminator. -/
def splitLine : List Byte → Option (List Byte × List Byte)
  | [] => none
  | b :: bs =>
    if b = termByte then some ([], bs)
    else match splitLine bs with
      | none => none
      | some (c, rest) => some (b :: c, rest)

/-- Which LINK-A line a content is (R106, R120, R121). -/
def lineInstrA (content : List Byte) : Instr :=
  if content.take 5 = cmdPfx then .cmdData (content.drop 5) else .lineOtherA content

/-- Which LINK-B line a content is (R106, R210, R211). -/
def lineInstrB (content : List Byte) : Instr :=
  if content.take 7 = repPfx then .replyReturn (content.drop 7) else .lineOtherB content

/-- The operation a scheduler state code names (R100); 0xB to 0xF are reserved (R254). -/
def decodeSched (st : BitVec 4) : Except DecodeError Instr :=
  match st.toNat with
  | 0 => .ok .sPollA
  | 1 => .ok .sRxA
  | 2 => .ok .sEnc
  | 3 => .ok .sPollQ
  | 4 => .ok .sTxB
  | 5 => .ok .sThrottle
  | 6 => .ok .sPollB
  | 7 => .ok .sRxB
  | 8 => .ok .sTxA
  | 9 => .ok .sStopClean
  | 10 => .ok .sStopError
  | _ => .error .reservedState

/-- The FIFO operation `{push, pop}` names (R108). -/
def decodeFifo (pushPop : BitVec 2) (din : Frame) : Except DecodeError Instr :=
  match pushPop.toNat with
  | 0 => .error .fifoIdle
  | 1 => .ok .fifoPop
  | 2 => .ok (.fifoPush din)
  | _ => .ok (.fifoPushPop din)

/-- The decoder, total on every code. -/
def decode : Code → Except DecodeError Instr
  | .lineA bytes =>
    match splitLine bytes with
    | none => .error .unterminated
    | some (content, _) => .ok (lineInstrA content)
  | .lineB bytes =>
    match splitLine bytes with
    | none => .error .unterminated
    | some (content, _) => .ok (lineInstrB content)
  | .sched st => decodeSched st
  | .fifo pushPop din => decodeFifo pushPop din

/-- The scheduler state code of an operation (R100), for the eleven that have one. -/
def Instr.stCode : Instr → BitVec 4
  | .sPollA => 0x0
  | .sRxA => 0x1
  | .sEnc => 0x2
  | .sPollQ => 0x3
  | .sTxB => 0x4
  | .sThrottle => 0x5
  | .sPollB => 0x6
  | .sRxB => 0x7
  | .sTxA => 0x8
  | .sStopClean => 0x9
  | .sStopError => 0xA
  | .cmdData _ | .lineOtherA _ | .replyReturn _ | .lineOtherB _ => 0x0
  | .fifoPush _ | .fifoPop | .fifoPushPop _ => 0x0

/-- The frame on an idle push port: `{len, data}` with nothing in it. -/
def Frame.idle : Frame := { len := 0, data := [] }

/-- The encoder: the code of an instruction, from the same tables. -/
def encode (i : Instr) : Code :=
  match i with
  | .cmdData body => .lineA (cmdPfx ++ body ++ [termByte])
  | .lineOtherA content => .lineA (content ++ [termByte])
  | .replyReturn body => .lineB (repPfx ++ body ++ [termByte])
  | .lineOtherB content => .lineB (content ++ [termByte])
  | .sPollA | .sRxA | .sEnc | .sPollQ | .sTxB | .sThrottle | .sPollB | .sRxB | .sTxA | .sStopClean | .sStopError =>
    .sched i.stCode
  | .fifoPush f => .fifo 0b10 f
  | .fifoPop => .fifo 0b01 Frame.idle
  | .fifoPushPop f => .fifo 0b11 f

/-- `n` bytes of a word, byte 0 most significant: how spec/opcode_table.json numbers a line's content bytes. -/
def wordBytes : Nat → Nat → List Byte
  | 0, _ => []
  | n + 1, w => BitVec.ofNat 8 (w / 256 ^ n) :: wordBytes n w

/-- The smallest frame R190 allows at the default CHUNK_SIZE: two bytes 0, padded; the push port of a FIFO table word,
which gives the operand no bits. -/
def Frame.zeros : Frame := { len := 2, data := List.replicate Config.default.chunkSize 0 }

/-- The code a table word stands for (log 12). The table's code spaces are told apart by their widths: FIFO control
below 4 bits, scheduler codes up to 8 bits, LINK-A content up to 40 bits, LINK-B content above; a line's terminator
is no part of its content. -/
def tableCode (nbits w : Nat) : Code :=
  if nbits < 4 then .fifo (BitVec.ofNat 2 w) Frame.zeros
  else if nbits ≤ 8 then .sched (BitVec.ofNat 4 w)
  else if nbits ≤ 40 then .lineA (wordBytes (nbits / 8) w ++ [termByte])
  else .lineB (wordBytes (nbits / 8) w ++ [termByte])

/-- The instruction the decoder reads from a table word, for the host. A word with bits above the 4 of a scheduler
code names none. -/
def decodeTableWord (nbits w : Nat) : Option Instr :=
  if nbits ≤ 8 ∧ 16 ≤ w then none
  else match decode (tableCode nbits w) with
  | .ok i => some i
  | .error _ => none

end Sys2Proof
end

