-- ==== Sys2Proof/Machine/State.lean ====
section
/-! DEFINITION. The state of the block: every register and storage of 10_state.md R43, and beside them the model's own
fields (the configuration, the environment still to come, the cycle number). Plain data. -/

namespace Sys2Proof.Machine

/-- A storage of values by index (20_memory.md R70): pairs in strictly rising index order. An index not listed has
NO VALUE (70_reset_and_hazards.md R322). -/
abbrev Store (α : Type) := List (Nat × α)

/-- A storage of bytes: cells of the host's form. -/
abbrev Memory := Store Byte

/-- A token record (R33). -/
structure TokenRec where
  start : Half
  decOk : Bool
  decBig : Bool
  decVal : Byte
  hexOk : Bool
  hexBig : Bool
  hexVal : Half
  deriving DecidableEq, Repr

/-- The line parser's registers (R32). -/
structure Parser where
  /-- `P.phase`, R101: 0 PFX, 1 BODY, 2 SKIP, 3 reserved. -/
  phase : BitVec 2
  pfxI : BitVec 3
  off : Half
  inTok : Bool
  c : TokenRec
  q : TokenRec
  qValid : Bool
  ntok : Half
  ndata : Half
  byteErr : Bool
  byteIdx : Half
  byteOff : Half
  ovf : Bool
  ovfOff : Half
  deriving DecidableEq, Repr

/-- The scheduler's registers: `SCH.st` (R30, codes R100) and `SCH.stop_cause` (R31). -/
structure Scheduler where
  st : BitVec 4
  stopCause : BitVec 2
  deriving DecidableEq, Repr

/-- The encoder's registers (R35): `ENC.L`, `ENC.A`, `ENC.k`. -/
structure Encoder where
  len : Half
  addr : Half
  k : Half
  deriving DecidableEq, Repr

/-- The frame FIFO's registers (R36). -/
structure FrameFifo where
  mem : Store Frame
  wptr : Half
  rptr : Half
  count : Half
  deriving DecidableEq, Repr

/-- The transmit registers (R37). `buf` is `none` while TX.buf has no value (R322). -/
structure Transmit where
  buf : Option (List Byte)
  len : Half
  idx : Half
  deriving DecidableEq, Repr

/-- The report registers (R42); link 0 is LINK-A, 1 is LINK-B (R109); the kinds are R104's codes. -/
structure Report where
  valid : Bool
  link : BitVec 1
  kind : BitVec 4
  index : Half
  offset : Half
  count : Half
  deriving DecidableEq, Repr

/-- What the environment does next (log 1, 3). -/
inductive Stimulus where
  /-- One rising edge, with the input ports sampled as given. -/
  | edge (pins : Pins)
  /-- LINK-A's source offers these bytes, one in every cycle until it is taken; both sinks are always ready; no reset
  and no stop input: 95_test_vectors.md's eager environment, and R256's. -/
  | bytesA (bytes : List Byte)
  /-- The same on LINK-B. -/
  | bytesB (bytes : List Byte)
  deriving DecidableEq, Repr

/-- The whole machine: the block's registers (R43), then the model's own fields `cfg`, `stim`, `cycle`. -/
structure State where
  sch : Scheduler
  p : Parser
  /-- LBUF (R34). -/
  lbuf : Memory
  enc : Encoder
  fifo : FrameFifo
  tx : Transmit
  /-- THR.cnt (R38). -/
  thr : Count32
  rpt : Report
  /-- The elaboration parameters (R6); never written (log 5). -/
  cfg : Config
  /-- The environment still to come (log 1). -/
  stim : List Stimulus
  /-- Clock cycles since the run began (log 4). -/
  cycle : Nat
  deriving DecidableEq, Repr

/-- Model faults (60_exceptions.md R309): the run ends. R309 calls every one unreachable from reset. -/
inductive Fault where
  /-- `SCH.st` in 0xB..0xF. Raised by the clock edge, after reset and the stop inputs (R240, R254). Safe: the spec names this
  fault. -/
  | reservedState
  /-- `P.phase` = 3. Raised by the byte step of either parser (R105). The spec names this fault. Unsafe in one respect: no other edge
  raises it (log 20). -/
  | reservedPhase
  /-- A push into a full FIFO. Raised by FIFO_PUSH, S_ENC (R190, R194). Safe: the spec names this fault. -/
  | fifoPushFull
  /-- A pop from an empty FIFO. Raised by FIFO_POP, FIFO_PUSHPOP (R191, R192). Safe: the spec names this fault. -/
  | fifoPopEmpty
  /-- S_THROTTLE with `THR.cnt` = 0. Raised by S_THROTTLE (R250). Safe: the spec names this fault. -/
  | throttleZero
  /-- A read of an LBUF, FIFO.mem or TX.buf byte that has no value. Raised by S_ENC, the pops, S_TX_B, S_TX_A (R322).
  Safe: the spec names this fault. -/
  | noValueRead
  /-- An index register beyond the list or storage it indexes: `P.pfx_i` past the prefix, `ENC.k` past the last frame, a
  FIFO pointer past the last entry. The spec gives no meaning there and no rule reaches it. Raised by the parsers' prefix
  step, S_ENC, the FIFO operations. Safe (log 8): the model stops. -/
  | indexOutOfRange
  deriving DecidableEq, Repr

/-- Why the model gives no step at all. -/
inductive Refusal where
  /-- An operation with no meaning yet. Raised by `exec` only. Safe. -/
  | notModelled (mnemonic : String)
  /-- ILLEGAL_CONFIG: a configuration outside R8. Raised by the clock edge. Safe: "A model refuses an illegal
  configuration" (R8). -/
  | illegalConfig
  /-- A code that names no operation. Raised by the clock edge for the decoder's rejections other than a reserved
  scheduler code; the clock edge never presents such a code. Safe. -/
  | undecodable
  deriving DecidableEq, Repr

/-- A token record with every field 0 (R33). -/
def TokenRec.init : TokenRec where
  start := 0
  decOk := false
  decBig := false
  decVal := 0
  hexOk := false
  hexBig := false
  hexVal := 0

/-- Every parser register 0: the reset value (R321) and `P_INIT` (R131). -/
def Parser.init : Parser where
  phase := 0
  pfxI := 0
  off := 0
  inTok := false
  c := TokenRec.init
  q := TokenRec.init
  qValid := false
  ntok := 0
  ndata := 0
  byteErr := false
  byteIdx := 0
  byteOff := 0
  ovf := false
  ovfOff := 0

/-- The machine right after reset (R321), at the default configuration (R6), with no stimulus given. -/
def State.reset : State where
  sch := { st := 0x0, stopCause := 0 }
  p := Parser.init
  lbuf := []
  enc := { len := 0, addr := 0, k := 0 }
  fifo := { mem := [], wptr := 0, rptr := 0, count := 0 }
  tx := { buf := none, len := 0, idx := 0 }
  thr := 0
  rpt := { valid := false, link := 0, kind := 0, index := 0, offset := 0, count := 0 }
  cfg := Config.default
  stim := []
  cycle := 0

end Sys2Proof.Machine
end

