-- ==== Sys2Proof/Machine/Ops.lean ====
section
/-! DEFINITION. The named operations over the registers and storages: saturation (R12), the derived constants (R7, R8,
R173), the storages (R34, R36, R322), the input ports (R22, R330), the FIFO operations (R190 to R192), the report (R42),
stop entry (R298) and reset (R321). -/

namespace Sys2Proof.Machine

/-- `sat16` (R12), into the 16-bit register it is written to. -/
def sat16 (v : Nat) : Half := BitVec.ofNat 16 (min v 65535)

/-! The derived constants. -/

/-- PCAP (R7): the payload capacity of one frame. -/
def pcap (c : Config) : Nat := c.chunkSize - 2

/-- `ceil(a / b)` (R11). -/
def ceilDiv (a b : Nat) : Nat := (a + b - 1) / b

/-- N_MAX (R7): the most frames one command can produce. -/
def nMax (c : Config) : Nat := max 1 (ceilDiv c.lbufBytes (pcap c))

/-- `nframes` (R173). -/
def nframes (c : Config) (len : Nat) : Nat :=
  if len = 0 then 1 else ceilDiv len (pcap c)

/-- A legal configuration (R6, R8). THROTTLE_CYCLES < 2^32 holds by its type. -/
def legalConfig (c : Config) : Bool :=
  decide (3 ≤ c.chunkSize ∧ c.chunkSize ≤ 65535 ∧ 1 ≤ c.lbufBytes ∧ c.lbufBytes ≤ 65535
    ∧ nMax c ≤ c.fifoDepth ∧ c.fifoDepth ≤ 65535)

/-! Storages. -/

/-- What a storage holds at an index; `none` is "no value" (R322). An index the storage does not have is never listed, so it has
no value either: DESIGN CHOICE, safe (log 8). -/
def Store.read {α : Type} : Store α → Nat → Option α
  | [], _ => none
  | (j, v) :: rest, i => if i = j then some v else Store.read rest i

/-- Write one index, keeping the indices strictly rising. -/
def Store.write {α : Type} : Store α → Nat → α → Store α
  | [], i, v => [(i, v)]
  | (j, w) :: rest, i, v =>
    if i < j then (i, v) :: (j, w) :: rest
    else if i = j then (i, v) :: rest
    else (j, w) :: Store.write rest i v

/-- The canonical form: indices strictly rising. No entry can equal what an unlisted index reads as, since that is no
value. -/
def Store.wf {α : Type} : Store α → Bool
  | [] => true
  | [_] => true
  | (i, _) :: (j, w) :: rest => decide (i < j) && Store.wf ((j, w) :: rest)

/-- The canonical form of a byte storage. -/
def Memory.wf (m : Memory) : Bool := Store.wf m

/-- `n` consecutive bytes from index `i` on; a byte with no value is NO_VALUE_READ (R309). -/
def readRange (m : Memory) : Nat → Nat → Except Fault (List Byte)
  | _, 0 => .ok []
  | i, n + 1 =>
    match Store.read m i with
    | none => .error .noValueRead
    | some b =>
      match readRange m (i + 1) n with
      | .error e => .error e
      | .ok bs => .ok (b :: bs)

/-! Register codes. -/

def stPollA : BitVec 4 := 0x0
def stRxA : BitVec 4 := 0x1
def stEnc : BitVec 4 := 0x2
def stPollQ : BitVec 4 := 0x3
def stTxB : BitVec 4 := 0x4
def stThrottle : BitVec 4 := 0x5
def stPollB : BitVec 4 := 0x6
def stRxB : BitVec 4 := 0x7
def stTxA : BitVec 4 := 0x8
def stStopClean : BitVec 4 := 0x9
def stStopError : BitVec 4 := 0xA

def phPfx : BitVec 2 := 0
def phBody : BitVec 2 := 1
def phSkip : BitVec 2 := 2

def kCmdOk : BitVec 4 := 1
def kReplyOk : BitVec 4 := 2
def kNotCommand : BitVec 4 := 3
def kNotReply : BitVec 4 := 4
def kMalformedCommand : BitVec 4 := 5
def kInvalidAddress : BitVec 4 := 6
def kInvalidByteValue : BitVec 4 := 7
def kPayloadOverflow : BitVec 4 := 8

/-! The input ports. -/

/-- The ports while a source offers bytes in the eager environment: both sinks ready, nothing else asserted. -/
def eagerPins : Pins := { Pins.quiet with aTxReady := true, bTxReady := true }

/-- LINK-A's source offers the byte `b` in the eager environment. -/
def offerA (b : Byte) : Pins := { eagerPins with aRxValid := true, aRxData := b }

/-- LINK-B's source offers the byte `b` in the eager environment. -/
def offerB (b : Byte) : Pins := { eagerPins with bRxValid := true, bRxData := b }

/-- The input ports as sampled at the edge that ends this clock cycle (R330). -/
def State.pins (s : State) : Pins :=
  match s.stim with
  | .edge p :: _ => p
  | .bytesA (b :: _) :: _ => offerA b
  | .bytesB (b :: _) :: _ => offerB b
  | .bytesA [] :: _ => eagerPins
  | .bytesB [] :: _ => eagerPins
  | [] => Config.freePins s.cycle

/-! The scheduler state and the report. -/

/-- `SCH.st <- v`. -/
def State.setSt (s : State) (v : BitVec 4) : State := { s with sch := { s.sch with st := v } }

/-- The outcome of a line (R140, R219): what its report carries. -/
structure LineOutcome where
  kind : BitVec 4
  index : Half
  offset : Half
  count : Half
  deriving DecidableEq, Repr

/-- `report(link, kind, index, offset, count)` (R42). -/
def State.report (s : State) (link : BitVec 1) (o : LineOutcome) : State :=
  { s with rpt := { valid := true, link := link, kind := o.kind, index := o.index, offset := o.offset, count := o.count } }

/-- `RPT.valid <- 0` (R243). -/
def State.clearReport (s : State) : State := { s with rpt := { s.rpt with valid := false } }

/-! The FIFO operations. A count beyond FIFO_DEPTH, which R36 excludes, is full too (log 10). -/

/-- `fifo_push` (R190). -/
def fifoPush (s : State) (f : Frame) : Except Fault State :=
  if s.cfg.fifoDepth ≤ s.fifo.count.toNat then .error .fifoPushFull
  else if s.cfg.fifoDepth ≤ s.fifo.wptr.toNat then .error .indexOutOfRange
  else .ok { s with fifo := { s.fifo with
    mem := Store.write s.fifo.mem s.fifo.wptr.toNat f
    wptr := BitVec.ofNat 16 ((s.fifo.wptr.toNat + 1) % s.cfg.fifoDepth)
    count := BitVec.ofNat 16 (s.fifo.count.toNat + 1) } }

/-- `fifo_pop` (R191): the entry returned, and the state after. -/
def fifoPop (s : State) : Except Fault (Frame × State) :=
  if s.fifo.count = 0 then .error .fifoPopEmpty
  else if s.cfg.fifoDepth ≤ s.fifo.rptr.toNat then .error .indexOutOfRange
  else match Store.read s.fifo.mem s.fifo.rptr.toNat with
    | none => .error .noValueRead
    | some e => .ok (e, { s with fifo := { s.fifo with
        rptr := BitVec.ofNat 16 ((s.fifo.rptr.toNat + 1) % s.cfg.fifoDepth)
        count := BitVec.ofNat 16 (s.fifo.count.toNat - 1) } })

/-- `fifo_pushpop` (R192): the pop reads before the push writes; the count does not change. Both pointers are tested before the
head is read, so with FIFO.wptr past FIFO_DEPTH and a head with no value the fault is indexOutOfRange: DESIGN CHOICE, safe
(log 8). -/
def fifoPushPop (s : State) (f : Frame) : Except Fault (Frame × State) :=
  if s.fifo.count = 0 then .error .fifoPopEmpty
  else if s.cfg.fifoDepth ≤ s.fifo.rptr.toNat ∨ s.cfg.fifoDepth ≤ s.fifo.wptr.toNat then .error .indexOutOfRange
  else match Store.read s.fifo.mem s.fifo.rptr.toNat with
    | none => .error .noValueRead
    | some e => .ok (e, { s with fifo := { s.fifo with
        mem := Store.write s.fifo.mem s.fifo.wptr.toNat f
        rptr := BitVec.ofNat 16 ((s.fifo.rptr.toNat + 1) % s.cfg.fifoDepth)
        wptr := BitVec.ofNat 16 ((s.fifo.wptr.toNat + 1) % s.cfg.fifoDepth) } })

/-- A popped entry goes to the transmit registers (R37, R70, R77, R248; log 9). -/
def State.latchFrame (s : State) (e : Frame) : State :=
  { s with tx := { s.tx with buf := some e.data, len := e.len } }

/-! Stops and reset. -/

/-- The two stop states (R296, R297). -/
def State.stopped (s : State) : Bool := decide (s.sch.st = stStopClean ∨ s.sch.st = stStopError)

/-- `enter_stop` (R298): all there is of trap entry. Nothing else is written. -/
def enterStop (s : State) (v : BitVec 4) (aErr bErr : Bool) : State :=
  { s with
    sch := { st := v,
             stopCause := if v = stStopError then BitVec.ofNat 2 (bErr.toNat * 2 + aErr.toNat) else 0 }
    rpt := { s.rpt with valid := false } }

/-- `do_reset` (R321): every register to its reset value, every storage without value; the configuration stays (R6). -/
def doReset (s : State) : State :=
  { State.reset with cfg := s.cfg, stim := s.stim, cycle := s.cycle }

end Sys2Proof.Machine
end

