-- ==== Sys2Proof/Machine/FifoUnit.lean ====
section
/-! DEFINITION. The FIFO's operations on their own (42_pending_queue.md R190 to R192). A popped entry is latched in TX.buf and
TX.len (log 9). -/

namespace Sys2Proof.Machine

/-- FIFO_PUSH (R190). -/
def execFifoPush (f : Frame) (s : State) : Host.Outcome State Fault Refusal :=
  match fifoPush s f with
  | .error e => .fault e
  | .ok t => .next t

/-- FIFO_POP (R191). -/
def execFifoPop (s : State) : Host.Outcome State Fault Refusal :=
  match fifoPop s with
  | .error e => .fault e
  | .ok (e, t) => .next (t.latchFrame e)

/-- FIFO_PUSHPOP (R192). -/
def execFifoPushPop (f : Frame) (s : State) : Host.Outcome State Fault Refusal :=
  match fifoPushPop s f with
  | .error e => .fault e
  | .ok (e, t) => .next (t.latchFrame e)

end Sys2Proof.Machine
end

