-- ==== Sys2Proof/Machine/Operands.lean ====
section
/-! DEFINITION. The operands of a line (30_encoding.md R93, R94, R99, R102) and the function-level definitions of what a
line produces: parse_cmd (R125) and parse_reply (R212). -/

namespace Sys2Proof.Machine

/-- WS (R93). -/
def isWs (b : Byte) : Bool := b == 0x09 || b == 0x0B || b == 0x0C || b == 0x0D || b == 0x20

/-- DIGIT (R93). -/
def isDigit (b : Byte) : Bool := decide (0x30 ≤ b.toNat ∧ b.toNat ≤ 0x39)

/-- HEXDIG (R93). -/
def isHex (b : Byte) : Bool :=
  isDigit b || decide (0x41 ≤ b.toNat ∧ b.toNat ≤ 0x46) || decide (0x61 ≤ b.toNat ∧ b.toNat ≤ 0x66)

/-- The value of a HEXDIG byte (R93). -/
def hexDigit (b : Byte) : Nat :=
  if b.toNat ≤ 0x39 then b.toNat - 0x30
  else if b.toNat ≤ 0x46 then b.toNat - 0x41 + 10
  else b.toNat - 0x61 + 10

/-- A token of a body (R94): its bytes, and the offset in the line of the first. -/
structure Token where
  bytes : List Byte
  start : Nat
  deriving DecidableEq, Repr

/-- One more byte of the token being read, the byte standing at offset `off`. -/
def Token.extend (cur : Option Token) (b : Byte) (off : Nat) : Token :=
  match cur with
  | none => { bytes := [b], start := off }
  | some t => { t with bytes := t.bytes ++ [b] }

/-- The tokens of the bytes that begin at offset `off`, `cur` being the token still open there. -/
def tokensFrom : Nat → Option Token → List Byte → List Token
  | _, cur, [] => cur.toList
  | off, cur, b :: bs =>
    if isWs b then cur.toList ++ tokensFrom (off + 1) none bs
    else tokensFrom (off + 1) (some (Token.extend cur b off)) bs

/-- `tokens(c, n)` (R125): the maximal runs of bytes not in WS of the body from offset `n` on (R94). -/
def tokens (c : List Byte) (n : Nat) : List Token := tokensFrom n none (c.drop n)

/-- The value of a decimal token (R99). -/
def decValue (t : List Byte) : Nat := t.foldl (fun a b => a * 10 + (b.toNat - 0x30)) 0

/-- The value of a hexadecimal token (R102). -/
def hexValue (t : List Byte) : Nat := t.foldl (fun a b => a * 16 + hexDigit b) 0

/-- A decimal token with a byte value (R99). -/
def Token.isByteValue (t : Token) : Bool := t.bytes.all isDigit && decide (decValue t.bytes ≤ 255)

/-- The first token that is no byte value, with its index, counting from `k` (R128, R214). -/
def firstBad : Nat → List Token → Option (Nat × Token)
  | _, [] => none
  | k, t :: ts => if t.isByteValue then firstBad (k + 1) ts else some (k, t)

/-- The bytes of data tokens. -/
def dataBytes (ts : List Token) : List Byte := ts.map (fun t => BitVec.ofNat 8 (decValue t.bytes))

/-- What a LINK-A line produces (R125). -/
inductive CmdResult where
  | notCommand
  | malformedCommand
  | invalidAddress (index offset : Half)
  | invalidByteValue (index offset : Half)
  | payloadOverflow (index offset : Half)
  | ok (payload : List Byte) (addr : Half)
  deriving DecidableEq, Repr

/-- `parse_cmd` (R125), with the priorities of R130. -/
def parseCmd (cfg : Config) (c : List Byte) : CmdResult :=
  if c.take 5 ≠ cmdPfx then .notCommand
  else
    match (tokens c 5).getLast? with
    | none => .malformedCommand
    | some d =>
      let data := (tokens c 5).dropLast
      if data.length = 0 then .malformedCommand
      else if ¬ d.bytes.all isHex then .invalidAddress (sat16 data.length) (sat16 d.start)
      else if hexValue d.bytes > 0xFFFF ∧ cfg.addrPolicy = .reject then
        .invalidAddress (sat16 data.length) (sat16 d.start)
      else
        match firstBad 0 data with
        | some (k, t) => .invalidByteValue (sat16 k) (sat16 t.start)
        | none =>
          match data[cfg.lbufBytes]? with
          | some t => .payloadOverflow (BitVec.ofNat 16 cfg.lbufBytes) (sat16 t.start)
          | none => .ok (dataBytes data) (BitVec.ofNat 16 (hexValue d.bytes))

/-- What a LINK-B line produces (R212). -/
inductive ReplyResult where
  | notReply
  | invalidByteValue (index offset : Half)
  | payloadOverflow (index offset : Half)
  | ok (bytes : List Byte)
  deriving DecidableEq, Repr

/-- `parse_reply` (R212), with the priorities of R216. -/
def parseReply (cfg : Config) (c : List Byte) : ReplyResult :=
  if c.take 7 ≠ repPfx then .notReply
  else
    match firstBad 0 (tokens c 7) with
    | some (k, t) => .invalidByteValue (sat16 k) (sat16 t.start)
    | none =>
      match (tokens c 7)[cfg.lbufBytes]? with
      | some t => .payloadOverflow (BitVec.ofNat 16 cfg.lbufBytes) (sat16 t.start)
      | none => .ok (dataBytes (tokens c 7))

/-- The report of a LINK-A line's result: the fields of R104 (R120, R141). -/
def CmdResult.outcome (cfg : Config) : CmdResult → LineOutcome
  | .notCommand => { kind := kNotCommand, index := 0, offset := 0, count := 0 }
  | .malformedCommand => { kind := kMalformedCommand, index := 0, offset := 0, count := 0 }
  | .invalidAddress i o => { kind := kInvalidAddress, index := i, offset := o, count := 0 }
  | .invalidByteValue i o => { kind := kInvalidByteValue, index := i, offset := o, count := 0 }
  | .payloadOverflow i o => { kind := kPayloadOverflow, index := i, offset := o, count := 0 }
  | .ok payload _ => { kind := kCmdOk, index := 0, offset := 0, count := BitVec.ofNat 16 (nframes cfg payload.length) }

/-- The report of a LINK-B line's result: the fields of R104 (R210, R220). -/
def ReplyResult.outcome : ReplyResult → LineOutcome
  | .notReply => { kind := kNotReply, index := 0, offset := 0, count := 0 }
  | .invalidByteValue i o => { kind := kInvalidByteValue, index := i, offset := o, count := 0 }
  | .payloadOverflow i o => { kind := kPayloadOverflow, index := i, offset := o, count := 0 }
  | .ok bytes => { kind := kReplyOk, index := 0, offset := 0, count := BitVec.ofNat 16 bytes.length }

end Sys2Proof.Machine
end

