-- ==== Sys2Proof/Machine/Flags.lean ====
section
/-! DEFINITION. The status conditions and sticky flags of 10_state.md R39: the FIFO's empty, full and free (R193), the
token record's flags (R137), and the parser's `byte_err` and `ovf` (R139). -/

namespace Sys2Proof.Machine

/-- `empty` (R193). -/
def fifoEmpty (s : State) : Bool := decide (s.fifo.count = 0)

/-- `full` (R193); a count beyond FIFO_DEPTH, which R36 excludes, is full too (log 10). -/
def fifoFull (s : State) : Bool := decide (s.cfg.fifoDepth ≤ s.fifo.count.toNat)

/-- `free` (R193). -/
def fifoFree (s : State) : Nat := s.cfg.fifoDepth - s.fifo.count.toNat

/-- The admission test of R244 and R245. -/
def fifoAdmits (s : State) : Bool := decide (s.fifo.count.toNat + nMax s.cfg ≤ s.cfg.fifoDepth)

/-- The decimal half of `accumulate` (R137): `dec_ok`, `dec_big`, `dec_val`. -/
def TokenRec.accDec (t : TokenRec) (b : Byte) : TokenRec :=
  if isDigit b then
    let v := t.decVal.toNat * 10 + (b.toNat - 0x30)
    { t with decBig := t.decBig || decide (v > 255), decVal := BitVec.ofNat 8 v }
  else { t with decOk := false }

/-- The hexadecimal half of `accumulate` (R137): `hex_ok`, `hex_big`, `hex_val`. -/
def TokenRec.accHex (t : TokenRec) (b : Byte) : TokenRec :=
  if isHex b then
    { t with hexBig := t.hexBig || decide (t.hexVal.toNat ≥ 0x1000)
             hexVal := BitVec.ofNat 16 (t.hexVal.toNat * 16 + hexDigit b) }
  else { t with hexOk := false }

/-- `accumulate` (R137). -/
def TokenRec.accumulate (t : TokenRec) (b : Byte) : TokenRec := (t.accDec b).accHex b

/-- The record of a token whose first byte stands at `cur`, before that byte is accumulated (R136). -/
def TokenRec.fresh (cur : Half) : TokenRec where
  start := cur
  decOk := true
  decBig := false
  decVal := 0
  hexOk := true
  hexBig := false
  hexVal := 0

/-- A record whose token is a valid byte value (R139). -/
def TokenRec.good (t : TokenRec) : Bool := t.decOk && !t.decBig

/-- `byte_err`, `byte_idx`, `byte_off` when the data token `t` is committed (R139): the first bad one sticks. -/
def Parser.flagByte (p : Parser) (t : TokenRec) : Parser :=
  if !t.good && !p.byteErr then { p with byteErr := true, byteIdx := p.ndata, byteOff := t.start } else p

/-- `ovf`, `ovf_off` when the data token `t` is committed (R139): the first that does not fit sticks. -/
def Parser.flagOvf (cfg : Config) (p : Parser) (t : TokenRec) : Parser :=
  if cfg.lbufBytes ≤ p.ndata.toNat ∧ p.ovf = false then { p with ovf := true, ovfOff := t.start } else p

end Sys2Proof.Machine
end

