-- ==== Sys2Proof/Machine/Parsers.lean ====
section
/-! DEFINITION. The byte-serial line parser, in command mode (40_command_parser.md R131 to R140) and in reply mode
(43_reply_parser.md R217 to R219). -/

namespace Sys2Proof.Machine

/-- What one byte step gives: the registers, LBUF, and at the terminator the line's outcome. -/
structure ByteStep where
  p : Parser
  lbuf : Memory
  out : Option LineOutcome
  deriving DecidableEq, Repr

/-- The prefix phase on a byte that is not the terminator (R133). Past the prefix list the rule gives no meaning (log 8). -/
def pfxStep (p : Parser) (b : Byte) (pfx : List Byte) : Except Fault Parser :=
  match pfx[p.pfxI.toNat]? with
  | none => .error .indexOutOfRange
  | some want =>
    if b = want then
      .ok { p with
        pfxI := BitVec.ofNat 3 (p.pfxI.toNat + 1)
        phase := if p.pfxI.toNat + 1 = pfx.length then phBody else p.phase }
    else .ok { p with phase := phSkip }

/-- `token_byte` (R136). The flags `dec_big` and `hex_big` start at 0 in every token, as R136 writes and R33 says; R39 says that only
reset or P_INIT clears them. The model follows R136: DEDUCED, unsafe (log 19). -/
def tokenByte (p : Parser) (b : Byte) (cur : Half) : Parser :=
  { p with
    inTok := true
    c := (if p.inTok then p.c else TokenRec.fresh cur).accumulate b }

/-- The registers `commit` writes (R139). -/
def commitRegs (cfg : Config) (p : Parser) (t : TokenRec) : Parser :=
  { (p.flagByte t).flagOvf cfg t with ndata := sat16 (p.ndata.toNat + 1) }

/-- The LBUF byte `commit` writes (R139). -/
def commitByte (cfg : Config) (p : Parser) (m : Memory) (t : TokenRec) : Memory :=
  if t.good = true ∧ p.ndata.toNat < cfg.lbufBytes then Store.write m p.ndata.toNat t.decVal else m

/-- `finish_cmd` (R138): the registers. -/
def finishCmdRegs (cfg : Config) (p : Parser) : Parser :=
  let committed := if p.qValid then commitRegs cfg p p.q else p
  { committed with q := p.c, qValid := true, ntok := sat16 (p.ntok.toNat + 1), inTok := false }

/-- `finish_cmd` (R138): LBUF. -/
def finishCmdBuf (cfg : Config) (p : Parser) (m : Memory) : Memory :=
  if p.qValid then commitByte cfg p m p.q else m

/-- `finish_reply` (R218): the registers. -/
def finishReplyRegs (cfg : Config) (p : Parser) : Parser :=
  { commitRegs cfg p p.c with ntok := sat16 (p.ntok.toNat + 1), inTok := false }

/-- `finish_reply` (R218): LBUF. -/
def finishReplyBuf (cfg : Config) (p : Parser) (m : Memory) : Memory := commitByte cfg p m p.c

/-- `eol_cmd` (R140). -/
def eolCmd (cfg : Config) (p : Parser) : LineOutcome :=
  if p.phase ≠ phBody then { kind := kNotCommand, index := 0, offset := 0, count := 0 }
  else if p.ntok.toNat < 2 then { kind := kMalformedCommand, index := 0, offset := 0, count := 0 }
  else if p.q.hexOk = false ∨ (p.q.hexBig = true ∧ cfg.addrPolicy = .reject) then
    { kind := kInvalidAddress, index := p.ndata, offset := p.q.start, count := 0 }
  else if p.byteErr then { kind := kInvalidByteValue, index := p.byteIdx, offset := p.byteOff, count := 0 }
  else if p.ovf then
    { kind := kPayloadOverflow, index := BitVec.ofNat 16 cfg.lbufBytes, offset := p.ovfOff, count := 0 }
  else { kind := kCmdOk, index := 0, offset := 0, count := BitVec.ofNat 16 (nframes cfg p.ndata.toNat) }

/-- `eol_reply` (R219). -/
def eolReply (cfg : Config) (p : Parser) : LineOutcome :=
  if p.phase ≠ phBody then { kind := kNotReply, index := 0, offset := 0, count := 0 }
  else if p.byteErr then { kind := kInvalidByteValue, index := p.byteIdx, offset := p.byteOff, count := 0 }
  else if p.ovf then
    { kind := kPayloadOverflow, index := BitVec.ofNat 16 cfg.lbufBytes, offset := p.ovfOff, count := 0 }
  else { kind := kReplyOk, index := 0, offset := 0, count := p.ndata }

/-- `P.off <- sat16(P.off + 1)` (R132, R217). -/
def Parser.countByte (p : Parser) : Parser := { p with off := sat16 (p.off.toNat + 1) }

/-- `body_step_cmd` (R135), `cur` being the offset of `b`. A token still open is finished first: the outcome at the terminator is
that of `closed`, the registers the step leaves. -/
def bodyStepCmd (cfg : Config) (p : Parser) (m : Memory) (b : Byte) (cur : Half) : ByteStep :=
  if b = termByte ∨ isWs b = true then
    let closed := if p.inTok then finishCmdRegs cfg p else p
    let closedBuf := if p.inTok then finishCmdBuf cfg p m else m
    { p := closed, lbuf := closedBuf, out := if b = termByte then some (eolCmd cfg closed) else none }
  else { p := tokenByte p b cur, lbuf := m, out := none }

/-- The body phase of `rep_step` (R217), `cur` being the offset of `b`. -/
def bodyStepReply (cfg : Config) (p : Parser) (m : Memory) (b : Byte) (cur : Half) : ByteStep :=
  if b = termByte ∨ isWs b = true then
    let closed := if p.inTok then finishReplyRegs cfg p else p
    let closedBuf := if p.inTok then finishReplyBuf cfg p m else m
    { p := closed, lbuf := closedBuf, out := if b = termByte then some (eolReply cfg closed) else none }
  else { p := tokenByte p b cur, lbuf := m, out := none }

/-- The byte step of both modes (R132, R217): the prefix, the body step and the end-of-line outcome are the mode's. R105 and R309
give RESERVED_PHASE the condition `P.phase = 3` and no edge: the model raises it where a byte step reads P.phase, and nowhere
else: DEDUCED, unsafe (log 20). -/
def byteStep (pfx : List Byte) (body : Parser → Memory → Byte → Half → ByteStep) (eol : Parser → LineOutcome)
    (p : Parser) (m : Memory) (b : Byte) : Except Fault ByteStep :=
  if p.phase = phPfx then
    if b = termByte then .ok { p := p.countByte, lbuf := m, out := some (eol p.countByte) }
    else match pfxStep p.countByte b pfx with
      | .error e => .error e
      | .ok q => .ok { p := q, lbuf := m, out := none }
  else if p.phase = phBody then .ok (body p.countByte m b p.off)
  else if p.phase = phSkip then
    .ok { p := p.countByte, lbuf := m, out := if b = termByte then some (eol p.countByte) else none }
  else .error .reservedPhase

/-- `cmd_step` (R132). -/
def cmdStep (cfg : Config) (p : Parser) (m : Memory) (b : Byte) : Except Fault ByteStep :=
  byteStep cmdPfx (bodyStepCmd cfg) (eolCmd cfg) p m b

/-- `rep_step` (R217). -/
def repStep (cfg : Config) (p : Parser) (m : Memory) (b : Byte) : Except Fault ByteStep :=
  byteStep repPfx (bodyStepReply cfg) (eolReply cfg) p m b

/-- The byte steps of a whole line (R142, R221): the registers, LBUF and the last byte's outcome. -/
def runBytes (stepByte : Parser → Memory → Byte → Except Fault ByteStep) :
    Parser → Memory → List Byte → Except Fault ByteStep
  | p, m, [] => .ok { p := p, lbuf := m, out := none }
  | p, m, [b] => stepByte p m b
  | p, m, b :: b' :: bs =>
    match stepByte p m b with
    | .error e => .error e
    | .ok r => runBytes stepByte r.p r.lbuf (b' :: bs)

end Sys2Proof.Machine
end

