-- ==== Sys2Proof/Machine/Lines.lean ====
section
/-! DEFINITION. The line-level operations (40_command_parser.md R120, R121; 43_reply_parser.md R210, R211), each from the
poll that starts the line to the edge that consumes its terminator (log 11). What follows the terminator (pushing the
frames, sending the reply) the scheduler does next, from the registers the line leaves. -/

namespace Sys2Proof.Machine

/-- CMD_DATA (R120): the parser registers and LBUF as the line's bytes leave them from `P_INIT` (R131 to R139); the
outcome of `parse_cmd` (R125) reported; on CMD_OK the encoder's registers loaded and S_ENC next, else S_POLL_Q (R246). -/
def execCmdData (body : List Byte) (s : State) : Host.Outcome State Fault Refusal :=
  match runBytes (cmdStep s.cfg) Parser.init s.lbuf (cmdPfx ++ body ++ [termByte]) with
  | .error e => .fault e
  | .ok r =>
    let res := parseCmd s.cfg (cmdPfx ++ body)
    let t := ({ s with p := r.p, lbuf := r.lbuf }).report 0 (res.outcome s.cfg)
    match res with
    | .ok payload addr => .next { t.setSt stEnc with enc := { len := BitVec.ofNat 16 payload.length, addr := addr, k := 0 } }
    | .notCommand => .next (t.setSt stPollQ)
    | .malformedCommand => .next (t.setSt stPollQ)
    | .invalidAddress _ _ => .next (t.setSt stPollQ)
    | .invalidByteValue _ _ => .next (t.setSt stPollQ)
    | .payloadOverflow _ _ => .next (t.setSt stPollQ)

/-- LINE_OTHER_A (R121): the report NOT_COMMAND; nothing is written but the parser registers. -/
def execLineOtherA (content : List Byte) (s : State) : Host.Outcome State Fault Refusal :=
  match runBytes (cmdStep s.cfg) Parser.init s.lbuf (content ++ [termByte]) with
  | .error e => .fault e
  | .ok r =>
    .next ((({ s with p := r.p }).report 0 { kind := kNotCommand, index := 0, offset := 0, count := 0 }).setSt stPollQ)

/-- REPLY_RETURN (R210): the parser registers and LBUF as the line's bytes leave them; the outcome of `parse_reply` (R212)
reported; on REPLY_OK `TX.len` and `TX.idx` loaded and S_TX_A next, else S_POLL_A (R252). -/
def execReplyReturn (body : List Byte) (s : State) : Host.Outcome State Fault Refusal :=
  match runBytes (repStep s.cfg) Parser.init s.lbuf (repPfx ++ body ++ [termByte]) with
  | .error e => .fault e
  | .ok r =>
    let res := parseReply s.cfg (repPfx ++ body)
    let t := ({ s with p := r.p, lbuf := r.lbuf }).report 1 res.outcome
    match res with
    | .ok bytes => .next { t.setSt stTxA with tx := { s.tx with len := BitVec.ofNat 16 bytes.length, idx := 0 } }
    | .notReply => .next (t.setSt stPollA)
    | .invalidByteValue _ _ => .next (t.setSt stPollA)
    | .payloadOverflow _ _ => .next (t.setSt stPollA)

/-- LINE_OTHER_B (R211): the report NOT_REPLY; nothing is written but the parser registers. -/
def execLineOtherB (content : List Byte) (s : State) : Host.Outcome State Fault Refusal :=
  match runBytes (repStep s.cfg) Parser.init s.lbuf (content ++ [termByte]) with
  | .error e => .fault e
  | .ok r =>
    .next ((({ s with p := r.p }).report 1 { kind := kNotReply, index := 0, offset := 0, count := 0 }).setSt stPollA)

end Sys2Proof.Machine
end

