-- ==== Sys2Proof/Machine/FrameEncoder.lean ====
section
/-! DEFINITION. The frame encoder: the function level (41_frame_encoder.md R171, R172, R178) and the frame assembled at
an edge (R177). -/

namespace Sys2Proof.Machine

/-- The trailer: `(addr div 256, addr mod 256)`, high byte first (R172, R74). -/
def trailer (a : Half) : List Byte := [BitVec.ofNat 8 (a.toNat / 256), BitVec.ofNat 8 (a.toNat % 256)]

/-- Frame `k` of `encode(P, A)` (R171, R174). -/
def frameBytes (cfg : Config) (payload : List Byte) (a : Half) (k : Nat) : List Byte :=
  (payload.drop (k * pcap cfg)).take (pcap cfg) ++ trailer a

/-- `encode(P, A)` (R171). -/
def encodeFrames (cfg : Config) (payload : List Byte) (a : Half) : List (List Byte) :=
  (List.range (nframes cfg payload.length)).map (frameBytes cfg payload a)

/-- The payload part of a frame: all but the trailer. -/
def framePayload (f : List Byte) : List Byte := f.take (f.length - 2)

/-- `decode` of R178, a helper for statements only: no part of the block. -/
def decodeFrames (fs : List (List Byte)) : List Byte × Nat :=
  ((fs.map framePayload).flatten,
    match fs with
    | [] => 0
    | f :: _ => ((f[f.length - 2]?).getD 0).toNat * 256 + ((f[f.length - 1]?).getD 0).toNat)

/-- A FIFO entry holding the given frame bytes, padded with 0x00 to CHUNK_SIZE bytes (R177). -/
def padFrame (cfg : Config) (bytes : List Byte) : Frame :=
  { len := BitVec.ofNat 16 bytes.length, data := bytes ++ List.replicate (cfg.chunkSize - bytes.length) 0 }

/-- `frame(k)` (R177), read from LBUF and the ENC registers. -/
def assembleFrame (cfg : Config) (e : Encoder) (m : Memory) (k : Nat) : Except Fault Frame :=
  let start := k * pcap cfg
  let stop := min e.len.toNat (start + pcap cfg)
  match readRange m start (stop - start) with
  | .error err => .error err
  | .ok body => .ok (padFrame cfg (body ++ trailer e.addr))

end Sys2Proof.Machine
end

