-- ==== Sys2Proof/Machine/Ports.lean ====
section
/-! DEFINITION. The output ports (10_state.md R23 to R28) and the bytes that move on the streams at an edge (20_memory.md
R71): functions of the registers, and of the input ports for a move. -/

namespace Sys2Proof.Machine

/-- The frame byte at `TX.idx`, or after the last the terminator (R24); `none` is a byte with no value. An index at or past the
bytes TX.buf holds (TX.len above CHUNK_SIZE), where the spec gives no meaning, has no value: DESIGN CHOICE, safe (log 8). -/
def State.frameByte (s : State) : Option Byte :=
  if s.tx.idx.toNat < s.tx.len.toNat then s.tx.buf.bind (fun d => d[s.tx.idx.toNat]?) else some termByte

/-- The reply byte at `TX.idx`, or after the last the terminator (R25); `none` is a byte with no value. An index at or past
LBUF_BYTES (TX.len above it), where the spec gives no meaning, reads what the list holds there: no value, since no rule writes
one: DESIGN CHOICE, safe (log 8). -/
def State.replyByte (s : State) : Option Byte :=
  if s.tx.idx.toNat < s.tx.len.toNat then Store.read s.lbuf s.tx.idx.toNat else some termByte

/-- The output ports of R22. A data port is `none` where it reads a byte with no value. -/
structure Outputs where
  aRxReady : Bool
  aTxData : Option Byte
  aTxValid : Bool
  bRxReady : Bool
  bTxData : Option Byte
  bTxValid : Bool
  aRelease : Bool
  bRelease : Bool
  runState : BitVec 2
  stopCause : BitVec 2
  qLevel : Half
  rpt : Report
  deriving DecidableEq, Repr

/-- The outputs in a clock cycle (R23 to R28). -/
def State.outputs (s : State) : Outputs where
  aRxReady := decide (s.sch.st = stRxA)
  aTxData := if s.sch.st = stTxA then s.replyByte else some 0
  aTxValid := decide (s.sch.st = stTxA)
  bRxReady := decide (s.sch.st = stRxB)
  bTxData := if s.sch.st = stTxB then s.frameByte else some 0
  bTxValid := decide (s.sch.st = stTxB)
  aRelease := s.stopped
  bRelease := s.stopped
  runState := if s.sch.st = stStopClean then 1 else if s.sch.st = stStopError then 2 else 0
  stopCause := s.sch.stopCause
  qLevel := s.fifo.count
  rpt := s.rpt

/-- The bytes that move at the edge ending a clock cycle (R71), also at a stop or a reset edge (R302, R326). -/
structure Moves where
  aRx : Option Byte
  aTx : Option Byte
  bRx : Option Byte
  bTx : Option Byte
  deriving DecidableEq, Repr

/-- The moves at this edge: a stream moves where its valid and ready are both 1 (R71). -/
def State.moves (s : State) : Moves where
  aRx := if s.outputs.aRxReady && s.pins.aRxValid then some s.pins.aRxData else none
  aTx := if s.outputs.aTxValid && s.pins.aTxReady then s.outputs.aTxData else none
  bRx := if s.outputs.bRxReady && s.pins.bRxValid then some s.pins.bRxData else none
  bTx := if s.outputs.bTxValid && s.pins.bTxReady then s.outputs.bTxData else none

end Sys2Proof.Machine
end

