-- ==== Sys2Proof/Machine/Sched.lean ====
section
/-! DEFINITION. The scheduler operations (44_scheduler.md R244 to R253; 60_exceptions.md R296, R297): what an edge does in
each state when no reset and no stop input is asserted. The clock edge (Edge.lean) clears `RPT.valid` before it (R243). -/

namespace Sys2Proof.Machine

/-- S_POLL_A (R244): `poll_a`, with the admission rule R245. -/
def execSPollA (s : State) : Host.Outcome State Fault Refusal :=
  .next (if s.pins.aRxValid && fifoAdmits s then { s with p := Parser.init }.setSt stRxA else s.setSt stPollQ)

/-- S_RX_A (R246): `rx_a`. -/
def execSRxA (s : State) : Host.Outcome State Fault Refusal :=
  match s.pins.aRxValid with
  | false => .next s
  | true =>
    match cmdStep s.cfg s.p s.lbuf s.pins.aRxData with
    | .error e => .fault e
    | .ok r =>
      let t : State := { s with p := r.p, lbuf := r.lbuf }
      match r.out with
      | none => .next t
      | some o =>
        .next (if o.kind = kCmdOk then
            { (t.report 0 o).setSt stEnc with enc := { len := r.p.ndata, addr := r.p.q.hexVal, k := 0 } }
          else (t.report 0 o).setSt stPollQ)

/-- S_ENC (R247, R170): `enc_step`. A frame index past the last frame has no meaning (log 8). -/
def execSEnc (s : State) : Host.Outcome State Fault Refusal :=
  if nframes s.cfg s.enc.len.toNat ≤ s.enc.k.toNat then .fault .indexOutOfRange
  else match assembleFrame s.cfg s.enc s.lbuf s.enc.k.toNat with
    | .error e => .fault e
    | .ok f =>
      match fifoPush s f with
      | .error e => .fault e
      | .ok t =>
        .next (if s.enc.k.toNat + 1 = nframes s.cfg s.enc.len.toNat then t.setSt stPollQ
          else { t with enc := { t.enc with k := BitVec.ofNat 16 (s.enc.k.toNat + 1) } })

/-- S_POLL_Q (R248): `poll_q`, one frame at most. -/
def execSPollQ (s : State) : Host.Outcome State Fault Refusal :=
  match fifoEmpty s with
  | true => .next (s.setSt stPollB)
  | false =>
    match fifoPop s with
    | .error e => .fault e
    | .ok (f, t) => .next ({ t with tx := { buf := some f.data, len := f.len, idx := 0 } }.setSt stTxB)

/-- S_TX_B (R249): `tx_b`. The offered byte is read in every cycle of the state (R24), so one with no value faults (log 7). -/
def execSTxB (s : State) : Host.Outcome State Fault Refusal :=
  match s.frameByte with
  | none => .fault .noValueRead
  | some _ =>
    .next (if s.pins.bTxReady then
        (if s.tx.idx = s.tx.len then
          (if s.cfg.throttleCycles = 0 then s.setSt stPollB
            else { s with thr := s.cfg.throttleCycles }.setSt stThrottle)
        else { s with tx := { s.tx with idx := s.tx.idx + 1 } })
      else s)

/-- S_THROTTLE (R250): `throttle`. -/
def execSThrottle (s : State) : Host.Outcome State Fault Refusal :=
  if s.thr = 0 then .fault .throttleZero
  else .next (if s.thr = 1 then { s with thr := 0 }.setSt stPollB else { s with thr := s.thr - 1 })

/-- S_POLL_B (R251): `poll_b`. -/
def execSPollB (s : State) : Host.Outcome State Fault Refusal :=
  .next (if s.pins.bRxValid then { s with p := Parser.init }.setSt stRxB else s.setSt stPollA)

/-- S_RX_B (R252): `rx_b`. -/
def execSRxB (s : State) : Host.Outcome State Fault Refusal :=
  match s.pins.bRxValid with
  | false => .next s
  | true =>
    match repStep s.cfg s.p s.lbuf s.pins.bRxData with
    | .error e => .fault e
    | .ok r =>
      let t : State := { s with p := r.p, lbuf := r.lbuf }
      match r.out with
      | none => .next t
      | some o =>
        .next (if o.kind = kReplyOk then
            { (t.report 1 o).setSt stTxA with tx := { s.tx with len := r.p.ndata, idx := 0 } }
          else (t.report 1 o).setSt stPollA)

/-- S_TX_A (R253): `tx_a`. The offered byte is read in every cycle of the state (R25), so one with no value faults (log 7). -/
def execSTxA (s : State) : Host.Outcome State Fault Refusal :=
  match s.replyByte with
  | none => .fault .noValueRead
  | some _ =>
    .next (if s.pins.aTxReady then
        (if s.tx.idx = s.tx.len then s.setSt stPollA else { s with tx := { s.tx with idx := s.tx.idx + 1 } })
      else s)

/-- S_STOP_CLEAN (R296): `RPT.valid <- 0`; nothing else changes. -/
def execSStopClean (s : State) : Host.Outcome State Fault Refusal := .next s.clearReport

/-- S_STOP_ERROR (R297): `RPT.valid <- 0`; nothing else changes. -/
def execSStopError (s : State) : Host.Outcome State Fault Refusal := .next s.clearReport

end Sys2Proof.Machine
end

