-- ==== Sys2Proof/Machine/Dispatch.lean ====
section
/-! DEFINITION. The meaning of every operation of spec/opcode_table.json, one arm each. -/

namespace Sys2Proof.Machine

def exec (i : Instr) (s : State) : Host.Outcome State Fault Refusal :=
  match i with
  | .cmdData body => Sys2Proof.Machine.execCmdData body s
  | .lineOtherA content => Sys2Proof.Machine.execLineOtherA content s
  | .replyReturn body => Sys2Proof.Machine.execReplyReturn body s
  | .lineOtherB content => Sys2Proof.Machine.execLineOtherB content s
  | .sPollA => Sys2Proof.Machine.execSPollA s
  | .sRxA => Sys2Proof.Machine.execSRxA s
  | .sEnc => Sys2Proof.Machine.execSEnc s
  | .sPollQ => Sys2Proof.Machine.execSPollQ s
  | .sTxB => Sys2Proof.Machine.execSTxB s
  | .sThrottle => Sys2Proof.Machine.execSThrottle s
  | .sPollB => Sys2Proof.Machine.execSPollB s
  | .sRxB => Sys2Proof.Machine.execSRxB s
  | .sTxA => Sys2Proof.Machine.execSTxA s
  | .sStopClean => Sys2Proof.Machine.execSStopClean s
  | .sStopError => Sys2Proof.Machine.execSStopError s
  | .fifoPush f => Sys2Proof.Machine.execFifoPush f s
  | .fifoPop => Sys2Proof.Machine.execFifoPop s
  | .fifoPushPop f => Sys2Proof.Machine.execFifoPushPop f s

end Sys2Proof.Machine
end

