-- ==== Sys2Proof/Machine/Edge.lean ====
section
/-! DEFINITION. The clock edge (44_scheduler.md R240): what names the operation, the priority of reset and the stop inputs
(60_exceptions.md R295), and the environment's progress. -/

namespace Sys2Proof.Machine

/-- LINK-A's offered bytes hold a whole line and this S_POLL_A edge admits it (R244, R256). -/
def State.takesLineA (s : State) (bytes : List Byte) : Bool :=
  decide (s.sch.st = stPollA) && fifoAdmits s && (splitLine bytes).isSome

/-- LINK-B's offered bytes hold a whole line and this is an S_POLL_B edge (R251, R256). -/
def State.takesLineB (s : State) (bytes : List Byte) : Bool :=
  decide (s.sch.st = stPollB) && (splitLine bytes).isSome

/-- What names this step's operation (R106): `SCH.st`, or the whole line that the block takes now (log 3). -/
def State.fetch (s : State) : Code :=
  match s.stim with
  | .bytesA bytes :: _ => if s.takesLineA bytes then .lineA bytes else .sched s.sch.st
  | .bytesB bytes :: _ => if s.takesLineB bytes then .lineB bytes else .sched s.sch.st
  | .edge _ :: _ => .sched s.sch.st
  | [] => .sched s.sch.st

/-- The bytes after the first line; none where there is no terminator. -/
def afterLine (bytes : List Byte) : List Byte :=
  match splitLine bytes with
  | some (_, rest) => rest
  | none => []

/-- The stimuli with these bytes still to be offered on LINK-A first. -/
def keepA (bytes : List Byte) (rest : List Stimulus) : List Stimulus :=
  if bytes.isEmpty then rest else .bytesA bytes :: rest

/-- The stimuli with these bytes still to be offered on LINK-B first. -/
def keepB (bytes : List Byte) (rest : List Stimulus) : List Stimulus :=
  if bytes.isEmpty then rest else .bytesB bytes :: rest

/-- The environment after this step: an edge is over; an offered byte that moved is gone, one that did not move stays
offered (R71, R73); a line taken is gone whole. -/
def State.restStim (s : State) : List Stimulus :=
  match s.stim with
  | [] => []
  | .edge _ :: rest => rest
  | .bytesA bytes :: rest =>
    if s.takesLineA bytes then keepA (afterLine bytes) rest
    else if s.sch.st = stRxA then keepA bytes.tail rest
    else keepA bytes rest
  | .bytesB bytes :: rest =>
    if s.takesLineB bytes then keepB (afterLine bytes) rest
    else if s.sch.st = stRxB then keepB bytes.tail rest
    else keepB bytes rest

/-- The bytes this step consumes from LINK-A RX: a whole line taken, or the byte that moves at the edge (R71, R90). -/
def State.consumedA (s : State) : List Byte :=
  match s.stim with
  | .bytesA bytes :: _ =>
    if s.takesLineA bytes then bytes.take (bytes.length - (afterLine bytes).length) else s.moves.aRx.toList
  | _ => s.moves.aRx.toList

/-- The bytes this step consumes from LINK-B RX. -/
def State.consumedB (s : State) : List Byte :=
  match s.stim with
  | .bytesB bytes :: _ =>
    if s.takesLineB bytes then bytes.take (bytes.length - (afterLine bytes).length) else s.moves.bRx.toList
  | _ => s.moves.bRx.toList

/-- The clock cycles an operation takes (70_reset_and_hazards.md R338): one, or for a whole line the poll's cycle and one
for each byte, terminator included. -/
def instrCycles (i : Instr) : Nat := if i.isLine then i.content.length + 2 else 1

/-- Move the environment past the step made from `s`, which took `n` clock cycles. -/
def State.after (t s : State) (n : Nat) : State := { t with stim := s.restStim, cycle := s.cycle + n }

/-- A meaning's outcome, with the environment moved on where it answers a next state. -/
def finish (s : State) (n : Nat) : Host.Outcome State Fault Refusal → Host.Outcome State Fault Refusal
  | .next t => .next (t.after s n)
  | .fault e => .fault e
  | .refused r => .refused r

/-- One rising edge (R240): reset first, then a transport failure, then cancellation, then the operation, with `RPT.valid`
cleared before it (R243). The stop inputs are ignored in the stop states (R296, R297). A reserved SCH.st
raises its fault last, where R240 does. -/
def edge (s : State) : Host.Outcome State Fault Refusal :=
  if legalConfig s.cfg = false then .refused .illegalConfig
  else if s.pins.rst then .next ((doReset s).after s 1)
  else if !s.stopped && (s.pins.aErr || s.pins.bErr) then
    .next ((enterStop s stStopError s.pins.aErr s.pins.bErr).after s 1)
  else if !s.stopped && s.pins.cancel then
    .next ((enterStop s stStopClean s.pins.aErr s.pins.bErr).after s 1)
  else match decode s.fetch with
    | .ok i => finish s (instrCycles i) (exec i s.clearReport)
    | .error .reservedState => .fault .reservedState
    | .error .unterminated => .refused .undecodable
    | .error .fifoIdle => .refused .undecodable

end Sys2Proof.Machine
end

