-- ==== Sys2Proof/Machine/Step.lean ====
section
/-! DEFINITION. One step of the machine, and the host's placing of one instruction as the next. -/

namespace Sys2Proof.Machine

/-- One step: one rising edge of `clk` (R240), or one whole line taken (R256). -/
def step (s : State) : Host.Outcome State Fault Refusal := edge s

/-- Make the given code what the next step performs (log 13): a line is offered where the block polls its link; a scheduler
code goes into `SCH.st`, with the count S_THROTTLE is entered with, and one quiet edge follows. -/
def State.withCode (s : State) : Code → State
  | .lineA bytes => { s.setSt stPollA with stim := .bytesA bytes :: s.stim }
  | .lineB bytes => { s.setSt stPollB with stim := .bytesB bytes :: s.stim }
  | .sched st => { s.setSt st with
      thr := if st = stThrottle ∧ s.thr = 0 then 1 else s.thr
      stim := .edge Pins.quiet :: s.stim }
  | .fifo _ _ => { s with stim := .edge Pins.quiet :: s.stim }

/-- `s` with the instruction of a table word as its next (log 12, 13). -/
def State.withFetchWord (s : State) (nbits w : Nat) : State := s.withCode (tableCode nbits w)

end Sys2Proof.Machine
end

