-- ==== Sys2Proof/Safety.lean ====
section
/-! DEFINITION. The terms the statements use: what an edge without reset or stop is, what the FIFO holds as a list, the bytes a
run sends, the canonical text of a line, and the invariant of the states a run from reset can reach. -/

namespace Sys2Proof.Machine

/-- Input ports with no reset and no stop input: the edges at which a state's operation is performed (R242). -/
def calm (p : Pins) : Bool := !p.rst && !p.cancel && !p.aErr && !p.bErr

/-- The frames the FIFO holds, head first: the `count` entries from `rptr` on (R191), as the storage reads them. -/
def fifoFrames (s : State) : List (Option Frame) :=
  (List.range s.fifo.count.toNat).map (fun j => Store.read s.fifo.mem ((s.fifo.rptr.toNat + j) % s.cfg.fifoDepth))

/-- The FIFO's registers are in range and agree (R36, R193). -/
structure FifoOk (s : State) : Prop where
  depth : 1 ≤ s.cfg.fifoDepth ∧ s.cfg.fifoDepth ≤ 65535
  count : s.fifo.count.toNat ≤ s.cfg.fifoDepth
  rptr : s.fifo.rptr.toNat < s.cfg.fifoDepth
  wptr : s.fifo.wptr.toNat = (s.fifo.rptr.toNat + s.fifo.count.toNat) % s.cfg.fifoDepth

/-- A sequence of FIFO operations on their own, `some f` a push of `f` and `none` a pop (R195): the entries popped, in order, and
the state after; `none` where an operation does not answer. -/
def fifoTrace : List (Option Frame) → State → Option (List Frame × State)
  | [], s => some ([], s)
  | some f :: ops, s =>
    match exec (.fifoPush f) s with
    | .next t => fifoTrace ops t
    | .fault _ => none
    | .refused _ => none
  | none :: ops, s =>
    match exec .fifoPop s with
    | .next t =>
      match fifoTrace ops t with
      | some (es, u) => some ({ len := t.tx.len, data := t.tx.buf.getD [] } :: es, u)
      | none => none
    | .fault _ => none
    | .refused _ => none

/-- The bytes that move on LINK-B TX in the first `n` steps from `s`. -/
def sentB : Nat → State → List Byte
  | 0, _ => []
  | n + 1, s => s.moves.bTx.toList ++
    match step s with
    | .next t => sentB n t
    | .fault _ => []
    | .refused _ => []

/-- The bytes that move on LINK-A TX in the first `n` steps from `s`. -/
def sentA : Nat → State → List Byte
  | 0, _ => []
  | n + 1, s => s.moves.aTx.toList ++
    match step s with
    | .next t => sentA n t
    | .fault _ => []
    | .refused _ => []

/-- The storage holds the bytes `bs` from index 0 on. -/
def holds (m : Memory) (bs : List Byte) : Prop := ∀ k, k < bs.length → Store.read m k = bs[k]?

/-- A byte in decimal without leading zeros (R107). -/
def decText (b : Byte) : List Byte :=
  let d := fun n => BitVec.ofNat 8 (0x30 + n)
  if b.toNat < 10 then [d b.toNat]
  else if b.toNat < 100 then [d (b.toNat / 10), d (b.toNat % 10)]
  else [d (b.toNat / 100), d (b.toNat / 10 % 10), d (b.toNat % 10)]

/-- A hexadecimal digit in lower case (R107). -/
def hexChar (n : Nat) : Byte := if n < 10 then BitVec.ofNat 8 (0x30 + n) else BitVec.ofNat 8 (0x57 + n)

/-- An address in lower-case hexadecimal without leading zeros (R107). -/
def hexText (a : Half) : List Byte :=
  if a.toNat < 16 then [hexChar a.toNat]
  else if a.toNat < 256 then [hexChar (a.toNat / 16), hexChar (a.toNat % 16)]
  else if a.toNat < 4096 then [hexChar (a.toNat / 256), hexChar (a.toNat / 16 % 16), hexChar (a.toNat % 16)]
  else [hexChar (a.toNat / 4096), hexChar (a.toNat / 256 % 16), hexChar (a.toNat / 16 % 16), hexChar (a.toNat % 16)]

/-- Decimal values, each followed by one 0x20 (R107). -/
def decList (bs : List Byte) : List Byte := bs.flatMap (fun b => decText b ++ [0x20])

/-- The canonical content of a command line (R107). -/
def canonicalCmd (payload : List Byte) (a : Half) : List Byte := cmdPfx ++ decList payload ++ hexText a

/-- A well-formed reply line in the same spelling (R92). -/
def canonicalReply (bs : List Byte) : List Byte := repPfx ++ decList bs

/-- The edges at which LINK-A's source offers a line's bytes in the eager environment: the first one is seen by the poll,
then each is consumed (R338). -/
def lineEdgesA (bytes : List Byte) : List Stimulus :=
  .edge (offerA (bytes.headD 0)) :: bytes.map (fun b => .edge (offerA b))

/-- The same for LINK-B. -/
def lineEdgesB (bytes : List Byte) : List Stimulus :=
  .edge (offerB (bytes.headD 0)) :: bytes.map (fun b => .edge (offerB b))

/-- The pairs of scheduler codes of R255's state graph, between running states and into the stop states. -/
def schedPairs : List (BitVec 4 × BitVec 4) :=
  [(stPollA, stRxA), (stPollA, stPollQ), (stRxA, stRxA), (stRxA, stEnc), (stRxA, stPollQ), (stEnc, stEnc),
   (stEnc, stPollQ), (stPollQ, stTxB), (stPollQ, stPollB), (stTxB, stTxB), (stTxB, stThrottle), (stTxB, stPollB),
   (stThrottle, stThrottle), (stThrottle, stPollB), (stPollB, stRxB), (stPollB, stPollA), (stRxB, stRxB),
   (stRxB, stTxA), (stRxB, stPollA), (stTxA, stTxA), (stTxA, stPollA)]

/-- The invariant: what holds in every state a run from reset reaches. It rules out every model fault of R309. -/
structure State.Inv (s : State) : Prop where
  /-- The configuration is legal (R8). -/
  legal : legalConfig s.cfg = true
  /-- SCH.st is one of the eleven codes (R21, R100). -/
  code : s.sch.st.toNat ≤ 10
  /-- stop_cause is 0 but in S_STOP_ERROR (R31, R103). -/
  cause : s.sch.st ≠ stStopError → s.sch.stopCause = 0
  /-- P.phase is not the reserved code (R101). -/
  phase : s.p.phase.toNat ≤ 2
  /-- While the prefix is being matched, its next byte exists (R133). -/
  pfxA : s.sch.st = stRxA → s.p.phase = phPfx → s.p.pfxI.toNat < 5
  pfxB : s.sch.st = stRxB → s.p.phase = phPfx → s.p.pfxI.toNat < 7
  /-- The FIFO's registers agree (R193) and its live entries are frames (R36). -/
  fifo : FifoOk s
  frames : ∀ e ∈ fifoFrames s, ∃ f : Frame, e = some f ∧ f.wf s.cfg = true
  /-- The storages are in their canonical form. -/
  lbufWf : Store.wf s.lbuf = true
  memWf : Store.wf s.fifo.mem = true
  /-- While a line without error is read, its data bytes so far are in LBUF (R139). -/
  fits : s.sch.st = stRxA ∨ s.sch.st = stRxB → s.p.ovf = false → s.p.ndata.toNat ≤ s.cfg.lbufBytes
  stored : s.sch.st = stRxA ∨ s.sch.st = stRxB → s.p.ovf = false → s.p.byteErr = false →
    ∀ k, k < s.p.ndata.toNat → (Store.read s.lbuf k).isSome = true
  /-- A command line was admitted with room for all it can enqueue (R245). -/
  admitted : s.sch.st = stRxA → s.fifo.count.toNat + nMax s.cfg ≤ s.cfg.fifoDepth
  /-- S_ENC: the frames still to push exist, fit, and their bytes are in LBUF (R170, R177, R245). -/
  encLen : s.sch.st = stEnc → s.enc.len.toNat ≤ s.cfg.lbufBytes ∧ s.enc.k.toNat < nframes s.cfg s.enc.len.toNat
  encRoom : s.sch.st = stEnc →
    s.fifo.count.toNat + (nframes s.cfg s.enc.len.toNat - s.enc.k.toNat) ≤ s.cfg.fifoDepth
  encBytes : s.sch.st = stEnc → ∀ k, k < s.enc.len.toNat → (Store.read s.lbuf k).isSome = true
  /-- S_TX_B: TX.buf holds the frame (R37, R248). -/
  txB : s.sch.st = stTxB → s.tx.idx.toNat ≤ s.tx.len.toNat ∧ s.tx.len.toNat ≤ s.cfg.chunkSize ∧
    ∃ d, s.tx.buf = some d ∧ d.length = s.cfg.chunkSize
  /-- S_TX_A: LBUF holds the reply (R25, R252). -/
  txA : s.sch.st = stTxA → s.tx.idx.toNat ≤ s.tx.len.toNat ∧ s.tx.len.toNat ≤ s.cfg.lbufBytes ∧
    ∀ k, k < s.tx.len.toNat → (Store.read s.lbuf k).isSome = true
  /-- S_THROTTLE is entered with a count of at least 1 (R249, R250). -/
  throttle : s.sch.st = stThrottle → s.thr ≠ 0
  /-- A pending report is of one of the kinds of R104, and no line is being read (R331). -/
  kind : s.rpt.valid = true → 1 ≤ s.rpt.kind.toNat ∧ s.rpt.kind.toNat ≤ 8
  pulse : s.rpt.valid = true → s.sch.st ≠ stRxA ∧ s.sch.st ≠ stRxB

end Sys2Proof.Machine
end

