-- ==== Sys2Proof/Certificates/Slice0/Obligations.lean ====
section
/-! DEFINITION. The statements for the provers. They come from the numbered rules of spec/; each docstring names them. -/

open Sys2Proof Sys2Proof.Machine

/-! ## Encoding -/

/-- R91, R92, R95, R98, R100, R106, R108: decoding an encoded well-formed operation gives it back, with every operand. -/
def Obligations.DecodeOfEncodeIsTheInstruction : Prop :=
  ∀ (c : Config) (i : Instr), i.wf c = true → decode (encode i) = .ok i

/-- R90, R106: the bytes a link offers decode to the first line among them: a well-formed line operation of that link, whose
encoding is exactly that line's bytes; without a terminator there is no line yet. -/
def Obligations.LinesDecodeToTheFirstLine : Prop :=
  ∀ (c : Config) (content rest : List Byte), lineWf content = true →
    (∃ i, decode (.lineA (content ++ [termByte] ++ rest)) = .ok i ∧ i.wf c = true ∧ i.content = content ∧
      encode i = .lineA (content ++ [termByte]) ∧
      ((∃ body, i = .cmdData body) ↔ content.take 5 = cmdPfx)) ∧
    (∃ i, decode (.lineB (content ++ [termByte] ++ rest)) = .ok i ∧ i.wf c = true ∧ i.content = content ∧
      encode i = .lineB (content ++ [termByte]) ∧
      ((∃ body, i = .replyReturn body) ↔ content.take 7 = repPfx)) ∧
    decode (.lineA content) = .error .unterminated ∧ decode (.lineB content) = .error .unterminated

/-- R100, R105, R108, R120, R121, R210, R211: words written out from the tables decode to the operations they stand for. -/
def Obligations.TableWordsDecode : Prop :=
  decode (.lineA [0x44, 0x41, 0x54, 0x41, 0x3A, 0x31, 0x20, 0x66, 0x0A]) = .ok (.cmdData [0x31, 0x20, 0x66]) ∧
  decode (.lineA [0x64, 0x41, 0x54, 0x41, 0x3A, 0x0A]) = .ok (.lineOtherA [0x64, 0x41, 0x54, 0x41, 0x3A]) ∧
  decode (.lineB [0x52, 0x45, 0x54, 0x55, 0x52, 0x4E, 0x3A, 0x39, 0x0A, 0x4F]) = .ok (.replyReturn [0x39]) ∧
  decode (.lineB [0x4F, 0x4B, 0x0A]) = .ok (.lineOtherB [0x4F, 0x4B]) ∧
  decode (.sched 0b0101) = .ok .sThrottle ∧ decode (.sched 0b1010) = .ok .sStopError ∧
  decode (.sched 0b1011) = .error .reservedState ∧
  decode (.fifo 0b01 Frame.idle) = .ok .fifoPop

/-- R107: the canonical spelling of a command is read back as its payload and address. -/
def Obligations.CanonicalCommandParses : Prop :=
  ∀ (c : Config) (payload : List Byte) (a : Half), payload ≠ [] → payload.length ≤ c.lbufBytes →
    parseCmd c (canonicalCmd payload a) = .ok payload a

/-- R92, R212: a reply line in the same spelling is read back as its bytes; zero bytes is a reply too (R213). -/
def Obligations.SpelledReplyParses : Prop :=
  ∀ (c : Config) (bs : List Byte), bs.length ≤ c.lbufBytes → parseReply c (canonicalReply bs) = .ok bs

/-- The spec's inference of 30_encoding.md section 1 (under R93): a line ended by 0x0D 0x0A parses as the same line ended by 0x0A alone, on either link. -/
def Obligations.CarriageReturnChangesNothing : Prop :=
  ∀ (c : Config) (content : List Byte),
    parseCmd c (content ++ [0x0D]) = parseCmd c content ∧ parseReply c (content ++ [0x0D]) = parseReply c content

/-! ## Reset, stops, the clock edge -/

/-- R321: the effect of a reset edge, whatever the state and the other inputs: every register at its reset value, no storage with
a value. -/
def Obligations.ResetEdgeLeavesTheResetValues : Prop :=
  ∀ (s : State), legalConfig s.cfg = true → s.pins.rst = true →
    ∃ t, step s = .next t ∧ t.sch.st = 0 ∧ t.sch.stopCause = 0 ∧
      t.p = { phase := 0, pfxI := 0, off := 0, inTok := false,
              c := { start := 0, decOk := false, decBig := false, decVal := 0, hexOk := false, hexBig := false, hexVal := 0 },
              q := { start := 0, decOk := false, decBig := false, decVal := 0, hexOk := false, hexBig := false, hexVal := 0 },
              qValid := false, ntok := 0, ndata := 0, byteErr := false, byteIdx := 0, byteOff := 0, ovf := false,
              ovfOff := 0 } ∧
      t.enc = { len := 0, addr := 0, k := 0 } ∧
      t.fifo.wptr = 0 ∧ t.fifo.rptr = 0 ∧ t.fifo.count = 0 ∧ t.tx.len = 0 ∧ t.tx.idx = 0 ∧ t.thr = 0 ∧
      t.rpt = { valid := false, link := 0, kind := 0, index := 0, offset := 0, count := 0 } ∧
      (∀ k, Store.read t.lbuf k = none) ∧ (∀ k, Store.read t.fifo.mem k = none) ∧ t.tx.buf = none ∧
      t.cfg = s.cfg

/-- R298 with R242 and R295: at an edge in a running state a transport failure, else a cancellation, enters its stop state,
writes SCH.st, stop_cause and RPT.valid, and nothing else. -/
def Obligations.StopEntryWritesOnlyTheStopRegisters : Prop :=
  ∀ (s : State), legalConfig s.cfg = true → s.pins.rst = false → s.stopped = false →
    ((s.pins.aErr = true ∨ s.pins.bErr = true) →
      step s = .next { s with
        sch := { st := 0xA, stopCause := BitVec.ofNat 2 (s.pins.bErr.toNat * 2 + s.pins.aErr.toNat) }
        rpt := { s.rpt with valid := false }, stim := s.restStim, cycle := s.cycle + 1 }) ∧
    (s.pins.aErr = false → s.pins.bErr = false → s.pins.cancel = true →
      step s = .next { s with
        sch := { st := 0x9, stopCause := 0 }
        rpt := { s.rpt with valid := false }, stim := s.restStim, cycle := s.cycle + 1 })

/-- R296, R297, R300: a stop state absorbs any edges without reset, whatever the other inputs are: nothing changes but
RPT.valid, no byte moves on any stream, and both links stay released. -/
def Obligations.StopStatesAbsorbEveryInputButReset : Prop :=
  ∀ (ps : List Pins) (s : State) (rest : List Stimulus), legalConfig s.cfg = true → s.stopped = true →
    (∀ p ∈ ps, p.rst = false) → s.stim = ps.map Stimulus.edge ++ rest →
      core.run ps.length s = .next { s with
        rpt := { s.rpt with valid := if ps = [] then s.rpt.valid else false }
        stim := rest, cycle := s.cycle + ps.length } ∧
      s.moves = { aRx := none, aTx := none, bRx := none, bTx := none } ∧
      s.outputs.aRelease = true ∧ s.outputs.bRelease = true ∧
      s.outputs.runState = (if s.sch.st = 0x9 then 1 else 2) ∧
      sentA ps.length s = [] ∧ sentB ps.length s = []

/-- R296: S_STOP_CLEAN clears RPT.valid; nothing else changes. -/
def Obligations.StopCleanChangesOnlyReportValid : Prop :=
  decode (.sched 0x9) = .ok .sStopClean ∧
  ∀ (s : State), exec .sStopClean s = .next { s with rpt := { s.rpt with valid := false } }

/-- R297: S_STOP_ERROR clears RPT.valid; stop_cause and everything else keep their values. -/
def Obligations.StopErrorChangesOnlyReportValid : Prop :=
  decode (.sched 0xA) = .ok .sStopError ∧
  ∀ (s : State), exec .sStopError s = .next { s with rpt := { s.rpt with valid := false } }

/-- R240, R243, R79: where neither reset nor, in a running state, a stop input is 1, the step is `exec` of the decoded
operation with RPT.valid cleared before it. The rest is the model's own form: the environment's list `stim` moves on (log 1), and
`cycle` grows by the operation's cycles (log 4): one for a scheduler operation; where a `bytesA` or `bytesB` stimulus holds a
whole line that is taken now, the decoded operation is that line and its cycles are its length + 2 (log 3, R338). What `exec`
does and what the edge does around it is divided as log 17 says. No operation is refused. -/
def Obligations.StepRunsTheDecodedOperation : Prop :=
  ∀ (s : State) (i : Instr), legalConfig s.cfg = true → s.pins.rst = false →
    (s.stopped = false → calm s.pins = true) → decode s.fetch = .ok i →
    (∀ t, exec i { s with rpt := { s.rpt with valid := false } } = .next t →
      step s = .next { t with stim := s.restStim, cycle := s.cycle + instrCycles i }) ∧
    (∀ e, exec i { s with rpt := { s.rpt with valid := false } } = .fault e → step s = .fault e) ∧
    (∀ r, exec i { s with rpt := { s.rpt with valid := false } } ≠ .refused r)

/-- R240, R254: a SCH.st value in 0xB..0xF, at an edge without reset or stop input, is the model fault RESERVED_STATE. -/
def Obligations.ReservedSchedulerCodeFaults : Prop :=
  ∀ (s : State), legalConfig s.cfg = true → calm s.pins = true → 11 ≤ s.sch.st.toNat → step s = .fault .reservedState

/-- R8: a configuration outside the legal ones is refused at every edge. -/
def Obligations.IllegalConfigurationIsRefused : Prop :=
  ∀ (s : State), (s.cfg.chunkSize < 3 ∨ s.cfg.lbufBytes < 1 ∨ 65535 < s.cfg.lbufBytes ∨
      s.cfg.fifoDepth < max 1 ((s.cfg.lbufBytes + (s.cfg.chunkSize - 2) - 1) / (s.cfg.chunkSize - 2)) ∨
      65535 < s.cfg.fifoDepth) →
    step s = .refused .illegalConfig

/-- R6, R40: no step changes a parameter. -/
def Obligations.ConfigurationNeverChanges : Prop :=
  ∀ (s t : State), step s = .next t → t.cfg = s.cfg

/-- R23 to R28: the outputs are these functions of the registers. -/
def Obligations.OutputsFollowTheRegisters : Prop :=
  ∀ (s : State),
    (s.outputs.aRxReady = true ↔ s.sch.st = 0x1) ∧ (s.outputs.bRxReady = true ↔ s.sch.st = 0x7) ∧
    (s.outputs.aTxValid = true ↔ s.sch.st = 0x8) ∧ (s.outputs.bTxValid = true ↔ s.sch.st = 0x4) ∧
    (s.sch.st ≠ 0x4 → s.outputs.bTxData = some 0) ∧ (s.sch.st ≠ 0x8 → s.outputs.aTxData = some 0) ∧
    (s.sch.st = 0x4 → s.tx.idx.toNat < s.tx.len.toNat → ∀ d, s.tx.buf = some d → s.outputs.bTxData = d[s.tx.idx.toNat]?) ∧
    (s.sch.st = 0x4 → s.tx.len.toNat ≤ s.tx.idx.toNat → s.outputs.bTxData = some 0x0A) ∧
    (s.sch.st = 0x8 → s.tx.idx.toNat < s.tx.len.toNat → s.outputs.aTxData = Store.read s.lbuf s.tx.idx.toNat) ∧
    (s.sch.st = 0x8 → s.tx.len.toNat ≤ s.tx.idx.toNat → s.outputs.aTxData = some 0x0A) ∧
    (s.outputs.aRelease = true ↔ s.sch.st = 0x9 ∨ s.sch.st = 0xA) ∧ s.outputs.bRelease = s.outputs.aRelease ∧
    s.outputs.runState = (if s.sch.st = 0x9 then 1 else if s.sch.st = 0xA then 2 else 0) ∧
    s.outputs.stopCause = s.sch.stopCause ∧ s.outputs.qLevel = s.fifo.count ∧ s.outputs.rpt = s.rpt

/-! ## The scheduler's operations -/

/-- R244: S_POLL_A starts a line, with every parser register 0 (R131), exactly where a byte is offered and the FIFO has
N_MAX free entries; otherwise it goes on to S_POLL_Q; nothing else changes, and no byte moves on any stream in this state. -/
def Obligations.PollAStartsALineOnlyWithRoom : Prop :=
  decode (.sched 0x0) = .ok .sPollA ∧
  ∀ (s : State), exec .sPollA s = .next (
    if s.pins.aRxValid = true ∧ s.cfg.fifoDepth - s.fifo.count.toNat ≥ nMax s.cfg then
      { s with sch := { s.sch with st := 0x1 }, p := Parser.init }
    else { s with sch := { s.sch with st := 0x3 } }) ∧
    (s.sch.st = 0x0 → s.moves = { aRx := none, aTx := none, bRx := none, bTx := none })

/-- R251: S_POLL_B starts a line, with every parser register 0 (R131), where a byte is offered, else goes to S_POLL_A, whatever the
FIFO holds; nothing else changes, and no byte moves on any stream in this state. -/
def Obligations.PollBStartsALineWhenAByteIsOffered : Prop :=
  decode (.sched 0x6) = .ok .sPollB ∧
  ∀ (s : State), exec .sPollB s = .next (
    if s.pins.bRxValid = true then { s with sch := { s.sch with st := 0x7 }, p := Parser.init }
    else { s with sch := { s.sch with st := 0x0 } }) ∧
    (s.sch.st = 0x6 → s.moves = { aRx := none, aTx := none, bRx := none, bTx := none })

/-- R246: S_RX_A takes one byte or waits. A byte that does not end the line leaves the state; the terminator reports the
outcome of `eol_cmd` (R140, R141) and, on CMD_OK alone, loads the encoder and goes to S_ENC. At most the byte of LBUF at the
index P.ndata is written. -/
def Obligations.RxATakesOneByte : Prop :=
  decode (.sched 0x1) = .ok .sRxA ∧
  ∀ (s : State), s.p.phase.toNat ≤ 2 → (s.p.phase = 0 → s.p.pfxI.toNat < 5) →
    (s.pins.aRxValid = false → exec .sRxA s = .next s) ∧
    (s.pins.aRxValid = true → ∃ t, exec .sRxA s = .next t ∧
      t.p.off.toNat = min (s.p.off.toNat + 1) 65535 ∧
      (s.pins.aRxData ≠ 0x0A → t.sch = s.sch ∧ t.enc = s.enc ∧ t.rpt = s.rpt) ∧
      (s.pins.aRxData = 0x0A →
        t.rpt = { valid := true, link := 0, kind := (eolCmd s.cfg t.p).kind, index := (eolCmd s.cfg t.p).index,
                  offset := (eolCmd s.cfg t.p).offset, count := (eolCmd s.cfg t.p).count } ∧
        t.sch.stopCause = s.sch.stopCause ∧
        (t.rpt.kind = 1 → t.sch.st = 0x2 ∧ t.enc = { len := t.p.ndata, addr := t.p.q.hexVal, k := 0 }) ∧
        (t.rpt.kind ≠ 1 → t.sch.st = 0x3 ∧ t.enc = s.enc)) ∧
      (∀ k, k ≠ s.p.ndata.toNat ∨ s.cfg.lbufBytes ≤ k → Store.read t.lbuf k = Store.read s.lbuf k) ∧
      t.fifo = s.fifo ∧ t.tx = s.tx ∧ t.thr = s.thr ∧ t.cfg = s.cfg ∧ t.stim = s.stim ∧ t.cycle = s.cycle)

/-- R252: S_RX_B takes one byte or waits; the terminator reports the outcome of `eol_reply` (R219, R220) and, on REPLY_OK
alone, loads TX.len and TX.idx and goes to S_TX_A. At most the byte of LBUF at the index P.ndata is written. -/
def Obligations.RxBTakesOneByte : Prop :=
  decode (.sched 0x7) = .ok .sRxB ∧
  ∀ (s : State), s.p.phase.toNat ≤ 2 → (s.p.phase = 0 → s.p.pfxI.toNat < 7) →
    (s.pins.bRxValid = false → exec .sRxB s = .next s) ∧
    (s.pins.bRxValid = true → ∃ t, exec .sRxB s = .next t ∧
      t.p.off.toNat = min (s.p.off.toNat + 1) 65535 ∧
      (s.pins.bRxData ≠ 0x0A → t.sch = s.sch ∧ t.tx = s.tx ∧ t.rpt = s.rpt) ∧
      (s.pins.bRxData = 0x0A →
        t.rpt = { valid := true, link := 1, kind := (eolReply s.cfg t.p).kind, index := (eolReply s.cfg t.p).index,
                  offset := (eolReply s.cfg t.p).offset, count := (eolReply s.cfg t.p).count } ∧
        t.sch.stopCause = s.sch.stopCause ∧
        (t.rpt.kind = 2 → t.sch.st = 0x8 ∧ t.tx = { buf := s.tx.buf, len := t.p.ndata, idx := 0 }) ∧
        (t.rpt.kind ≠ 2 → t.sch.st = 0x0 ∧ t.tx = s.tx)) ∧
      (∀ k, k ≠ s.p.ndata.toNat ∨ s.cfg.lbufBytes ≤ k → Store.read t.lbuf k = Store.read s.lbuf k) ∧
      t.fifo = s.fifo ∧ t.enc = s.enc ∧ t.thr = s.thr ∧ t.cfg = s.cfg ∧ t.stim = s.stim ∧ t.cycle = s.cycle)

/-- R170, R177: S_ENC pushes frame ENC.k of `encode(P, ENC.A)`, padded with 0x00 to CHUNK_SIZE bytes, where LBUF holds the
payload P of length ENC.L, and goes to S_POLL_Q after the last frame. Only the FIFO entry at the write pointer is written. -/
def Obligations.EncPushesOneFrame : Prop :=
  decode (.sched 0x2) = .ok .sEnc ∧
  ∀ (s : State) (payload : List Byte), legalConfig s.cfg = true → payload.length = s.enc.len.toNat → holds s.lbuf payload →
    s.enc.k.toNat < nframes s.cfg s.enc.len.toNat → s.fifo.count.toNat < s.cfg.fifoDepth →
    s.fifo.wptr.toNat < s.cfg.fifoDepth →
    ∃ t, exec .sEnc s = .next t ∧
      Store.read t.fifo.mem s.fifo.wptr.toNat = some (padFrame s.cfg (frameBytes s.cfg payload s.enc.addr s.enc.k.toNat)) ∧
      (∀ k, k ≠ s.fifo.wptr.toNat → Store.read t.fifo.mem k = Store.read s.fifo.mem k) ∧
      t.fifo.wptr.toNat = (s.fifo.wptr.toNat + 1) % s.cfg.fifoDepth ∧ t.fifo.rptr = s.fifo.rptr ∧
      t.fifo.count.toNat = s.fifo.count.toNat + 1 ∧
      (s.enc.k.toNat + 1 = nframes s.cfg s.enc.len.toNat → t.sch = { s.sch with st := 0x3 } ∧ t.enc = s.enc) ∧
      (s.enc.k.toNat + 1 ≠ nframes s.cfg s.enc.len.toNat →
        t.sch = s.sch ∧ t.enc.k.toNat = s.enc.k.toNat + 1 ∧ t.enc.len = s.enc.len ∧ t.enc.addr = s.enc.addr) ∧
      t.p = s.p ∧ t.lbuf = s.lbuf ∧ t.tx = s.tx ∧ t.thr = s.thr ∧ t.rpt = s.rpt ∧ t.cfg = s.cfg ∧ t.stim = s.stim ∧
      t.cycle = s.cycle

/-- R248, R191: S_POLL_Q pops the head frame into the transmit registers and goes to S_TX_B; with an empty FIFO it goes to
S_POLL_B; nothing else changes. -/
def Obligations.PollQPopsOneFrame : Prop :=
  decode (.sched 0x3) = .ok .sPollQ ∧
  ∀ (s : State),
    (s.fifo.count = 0 → exec .sPollQ s = .next { s with sch := { s.sch with st := 0x6 } }) ∧
    (∀ f, FifoOk s → s.fifo.count ≠ 0 → Store.read s.fifo.mem s.fifo.rptr.toNat = some f →
      ∃ t, exec .sPollQ s = .next t ∧ t.tx = { buf := some f.data, len := f.len, idx := 0 } ∧
        t.sch = { s.sch with st := 0x4 } ∧ FifoOk t ∧ fifoFrames s = some f :: fifoFrames t ∧
        t.fifo.mem = s.fifo.mem ∧ t.fifo.wptr = s.fifo.wptr ∧
        t.p = s.p ∧ t.lbuf = s.lbuf ∧ t.enc = s.enc ∧ t.thr = s.thr ∧ t.rpt = s.rpt ∧ t.cfg = s.cfg ∧
        t.stim = s.stim ∧ t.cycle = s.cycle)

/-- R249: S_TX_B moves on by one byte when the sink is ready; after the terminator it loads the throttle, or skips it when
THROTTLE_CYCLES is 0; without ready nothing changes. -/
def Obligations.TxBSendsOneByte : Prop :=
  decode (.sched 0x4) = .ok .sTxB ∧
  ∀ (s : State), (s.tx.idx.toNat < s.tx.len.toNat → ∃ d, s.tx.buf = some d ∧ s.tx.idx.toNat < d.length) →
    exec .sTxB s = .next (
      if s.pins.bTxReady = false then s
      else if s.tx.idx = s.tx.len then
        if s.cfg.throttleCycles = 0 then { s with sch := { s.sch with st := 0x6 } }
        else { s with sch := { s.sch with st := 0x5 }, thr := s.cfg.throttleCycles }
      else { s with tx := { s.tx with idx := s.tx.idx + 1 } })

/-- R250: S_THROTTLE counts down by one and goes to S_POLL_B at the last count; a count of 0 is the model fault
THROTTLE_ZERO; nothing else changes. -/
def Obligations.ThrottleCountsDown : Prop :=
  decode (.sched 0x5) = .ok .sThrottle ∧
  ∀ (s : State),
    (s.thr = 0 → exec .sThrottle s = .fault .throttleZero) ∧
    (s.thr = 1 → exec .sThrottle s = .next { s with thr := 0, sch := { s.sch with st := 0x6 } }) ∧
    (2 ≤ s.thr.toNat → ∃ t, exec .sThrottle s = .next t ∧ t = { s with thr := t.thr } ∧ t.thr.toNat = s.thr.toNat - 1)

/-- R253: S_TX_A moves on by one byte when the sink is ready, and after the terminator goes to S_POLL_A with no throttle;
without ready nothing changes. -/
def Obligations.TxASendsOneByte : Prop :=
  decode (.sched 0x8) = .ok .sTxA ∧
  ∀ (s : State), (s.tx.idx.toNat < s.tx.len.toNat → (Store.read s.lbuf s.tx.idx.toNat).isSome = true) →
    exec .sTxA s = .next (
      if s.pins.aTxReady = false then s
      else if s.tx.idx = s.tx.len then { s with sch := { s.sch with st := 0x0 } }
      else { s with tx := { s.tx with idx := s.tx.idx + 1 } })

/-- The spec's inference of 44_scheduler.md section 3 (the state graph under R255, its pairs without their conditions): a step of one clock cycle with no reset goes along a pair of the table's running states, or from a
running state into a stop state, or stays in a stop state. -/
def Obligations.StateGraphIsTheTables : Prop :=
  ∀ (s t : State), step s = .next t → s.pins.rst = false → t.cycle = s.cycle + 1 →
    (s.sch.st, t.sch.st) ∈ schedPairs ∨ (s.stopped = false ∧ t.stopped = true) ∨ (s.stopped = true ∧ t.sch.st = s.sch.st)

/-- The spec's inference of 44_scheduler.md section 3 (under R260): the four waits. With no byte offered in a receive state, or no ready sink in a transmit state whose offered
byte has a value, an edge changes nothing but the report pulse; the transmit outputs stay as they are (R73). -/
def Obligations.WaitsChangeNothingButTheReportPulse : Prop :=
  ∀ (s : State), legalConfig s.cfg = true → calm s.pins = true →
    (s.sch.st = 0x1 ∧ s.pins.aRxValid = false ∨ s.sch.st = 0x7 ∧ s.pins.bRxValid = false ∨
     s.sch.st = 0x4 ∧ s.pins.bTxReady = false ∧ s.outputs.bTxData ≠ none ∨
     s.sch.st = 0x8 ∧ s.pins.aTxReady = false ∧ s.outputs.aTxData ≠ none) →
    ∃ t, step s = .next t ∧
      t = { s with rpt := { s.rpt with valid := false }, stim := s.restStim, cycle := s.cycle + 1 } ∧
      t.outputs.aTxData = s.outputs.aTxData ∧ t.outputs.bTxData = s.outputs.bTxData ∧
      t.outputs.aTxValid = s.outputs.aTxValid ∧ t.outputs.bTxValid = s.outputs.bTxValid

/-! ## The parsers -/

/-- The spec's inference of 40_command_parser.md section 3 (under R137), from the record that R136 gives a token's first byte (where R39 disagrees: log 19): a token record after any token's
bytes: the flags and the values of both readings. -/
def Obligations.TokenRecordHoldsBothReadings : Prop :=
  ∀ (cur : Half) (bs : List Byte), ∃ t, bs.foldl TokenRec.accumulate (TokenRec.fresh cur) = t ∧
    t.start = cur ∧ t.decOk = bs.all isDigit ∧ t.hexOk = bs.all isHex ∧
    (t.decOk = true → (t.decBig = true ↔ 255 < decValue bs) ∧ (t.decBig = false → t.decVal.toNat = decValue bs)) ∧
    (t.hexOk = true → (t.hexBig = true ↔ 0xFFFF < hexValue bs) ∧ t.hexVal.toNat = hexValue bs % 65536)

/-- R139: a commit. The first data token that is no byte value, and the first that does not fit, are recorded and stick; a
good token that fits is written to LBUF at its index, and no other byte of LBUF changes; the index advances, saturating. -/
def Obligations.CommitStoresOrFlags : Prop :=
  ∀ (c : Config) (p : Parser) (m : Memory) (t : TokenRec),
    (commitRegs c p t).ndata.toNat = min (p.ndata.toNat + 1) 65535 ∧
    (p.byteErr = true → (commitRegs c p t).byteErr = true ∧ (commitRegs c p t).byteIdx = p.byteIdx ∧
      (commitRegs c p t).byteOff = p.byteOff) ∧
    (p.byteErr = false → (t.decOk = true ∧ t.decBig = false → (commitRegs c p t).byteErr = false) ∧
      (¬ (t.decOk = true ∧ t.decBig = false) → (commitRegs c p t).byteErr = true ∧
        (commitRegs c p t).byteIdx = p.ndata ∧ (commitRegs c p t).byteOff = t.start)) ∧
    (p.ovf = true → (commitRegs c p t).ovf = true ∧ (commitRegs c p t).ovfOff = p.ovfOff) ∧
    (p.ovf = false → p.ndata.toNat < c.lbufBytes → (commitRegs c p t).ovf = false) ∧
    (p.ovf = false → c.lbufBytes ≤ p.ndata.toNat → (commitRegs c p t).ovf = true ∧ (commitRegs c p t).ovfOff = t.start) ∧
    (t.decOk = true → t.decBig = false → p.ndata.toNat < c.lbufBytes →
      Store.read (commitByte c p m t) p.ndata.toNat = some t.decVal) ∧
    (∀ k, k ≠ p.ndata.toNat ∨ ¬ (t.decOk = true ∧ t.decBig = false) ∨ c.lbufBytes ≤ k →
      Store.read (commitByte c p m t) k = Store.read m k) ∧
    (commitRegs c p t).phase = p.phase ∧ (commitRegs c p t).pfxI = p.pfxI ∧ (commitRegs c p t).off = p.off ∧
    (commitRegs c p t).inTok = p.inTok ∧ (commitRegs c p t).c = p.c ∧ (commitRegs c p t).q = p.q ∧
    (commitRegs c p t).qValid = p.qValid ∧ (commitRegs c p t).ntok = p.ntok

/-- The spec's inference of 40_command_parser.md section 3 (under R142): the two levels agree on every LINK-A line. Running `cmd_step` on a content and its terminator from
`P_INIT` is done exactly at the terminator, with the outcome of `parse_cmd`. -/
def Obligations.CommandParserLevelsAgree : Prop :=
  ∀ (c : Config) (m : Memory) (content : List Byte), legalConfig c = true → lineWf content = true →
    (∀ d, d <+: content → ∃ r, runBytes (cmdStep c) Parser.init m d = .ok r ∧ r.out = none) ∧
    ∃ r, runBytes (cmdStep c) Parser.init m (content ++ [termByte]) = .ok r ∧
      r.out = some ((parseCmd c content).outcome c)

/-- The spec's inference of 40_command_parser.md section 3 (under R143): after CMD_OK, P.ndata is the number of data tokens, LBUF holds their values, and P.Q.hex_val is the address; LBUF
past them is as before. -/
def Obligations.AcceptedCommandIsInTheRegisters : Prop :=
  ∀ (c : Config) (m : Memory) (content payload : List Byte) (a : Half), legalConfig c = true → lineWf content = true →
    parseCmd c content = .ok payload a →
    ∃ r, runBytes (cmdStep c) Parser.init m (content ++ [termByte]) = .ok r ∧
      r.p.ndata.toNat = payload.length ∧ 1 ≤ payload.length ∧ payload.length ≤ c.lbufBytes ∧ r.p.q.hexVal = a ∧
      holds r.lbuf payload ∧ ∀ k, payload.length ≤ k → Store.read r.lbuf k = Store.read m k

/-- The spec's inference of 43_reply_parser.md section 3 (under R221): the two levels agree on every LINK-B line, and on REPLY_OK LBUF holds the reply's bytes. -/
def Obligations.ReplyParserLevelsAgree : Prop :=
  ∀ (c : Config) (m : Memory) (content : List Byte), legalConfig c = true → lineWf content = true →
    (∀ d, d <+: content → ∃ r, runBytes (repStep c) Parser.init m d = .ok r ∧ r.out = none) ∧
    ∃ r, runBytes (repStep c) Parser.init m (content ++ [termByte]) = .ok r ∧
      r.out = some (parseReply c content).outcome ∧ r.p.qValid = false ∧
      ∀ bs, parseReply c content = .ok bs → r.p.ndata.toNat = bs.length ∧ bs.length ≤ c.lbufBytes ∧ holds r.lbuf bs ∧
        ∀ k, bs.length ≤ k → Store.read r.lbuf k = Store.read m k

/-! ## Lines -/

/-- R120, R124; where the instruction ends is the model's reading (log 11, DEDUCED): at the terminator's edge, with S_ENC next
on CMD_OK and the pushes of R120 made by the S_ENC steps that follow. CMD_DATA completes for every body: it reports the outcome of `parse_cmd`; on CMD_OK LBUF holds the payload,
the encoder's registers are loaded and S_ENC is next; on any error nothing but the parser registers and LBUF is written and
S_POLL_Q is next. LBUF past the data tokens is as before. -/
def Obligations.CmdDataReportsAndLoadsTheEncoder : Prop :=
  ∀ (s : State) (body : List Byte), legalConfig s.cfg = true → lineWf body = true →
    ∃ t o, exec (.cmdData body) s = .next t ∧ (parseCmd s.cfg (cmdPfx ++ body)).outcome s.cfg = o ∧
      t.rpt = { valid := true, link := 0, kind := o.kind, index := o.index, offset := o.offset, count := o.count } ∧
      (∀ payload a, parseCmd s.cfg (cmdPfx ++ body) = .ok payload a →
        t.sch = { s.sch with st := 0x2 } ∧ t.enc.len.toNat = payload.length ∧ t.enc.addr = a ∧ t.enc.k = 0 ∧
        holds t.lbuf payload) ∧
      (o.kind ≠ 1 → t.sch = { s.sch with st := 0x3 } ∧ t.enc = s.enc) ∧
      (∀ k, (tokens (cmdPfx ++ body) 5).length - 1 ≤ k → Store.read t.lbuf k = Store.read s.lbuf k) ∧
      t.fifo = s.fifo ∧ t.tx = s.tx ∧ t.thr = s.thr ∧ t.cfg = s.cfg ∧ t.stim = s.stim ∧ t.cycle = s.cycle

/-- R121, R98, with the next state of R246 and R291; the instruction's span, to the terminator's edge and the state after it, is the
model's reading (log 11, DEDUCED). A LINK-A line without the DATA prefix completes with one report NOT_COMMAND; it writes nothing else but the
parser registers and goes to S_POLL_Q. -/
def Obligations.OtherLineAOnlyReports : Prop :=
  ∀ (s : State) (content : List Byte), lineWf content = true → content.take 5 ≠ cmdPfx →
    ∃ t, exec (.lineOtherA content) s = .next t ∧
      t = { s with p := t.p, sch := { s.sch with st := 0x3 },
                   rpt := { valid := true, link := 0, kind := 3, index := 0, offset := 0, count := 0 } } ∧
      t.p.off.toNat = min (content.length + 1) 65535 ∧ t.p.ndata = 0 ∧ t.p.byteErr = false ∧ t.p.ovf = false

/-- R210, R222; where the instruction ends is the model's reading (log 11, DEDUCED): at the terminator's edge, with S_TX_A next
and TX.idx 0 on REPLY_OK, the sending of R210 being done by the S_TX_A steps that follow. REPLY_RETURN completes for every body: it reports the outcome of `parse_reply`; on REPLY_OK LBUF holds the
bytes, TX.len and TX.idx are loaded and S_TX_A is next; on an error no TX register is written and S_POLL_A is next. -/
def Obligations.ReplyReturnReportsAndLoadsTransmit : Prop :=
  ∀ (s : State) (body : List Byte), legalConfig s.cfg = true → lineWf body = true →
    ∃ t o, exec (.replyReturn body) s = .next t ∧ (parseReply s.cfg (repPfx ++ body)).outcome = o ∧
      t.rpt = { valid := true, link := 1, kind := o.kind, index := o.index, offset := o.offset, count := o.count } ∧
      (∀ bs, parseReply s.cfg (repPfx ++ body) = .ok bs →
        t.sch = { s.sch with st := 0x8 } ∧ t.tx.len.toNat = bs.length ∧ t.tx.idx = 0 ∧ t.tx.buf = s.tx.buf ∧
        holds t.lbuf bs) ∧
      (o.kind ≠ 2 → t.sch = { s.sch with st := 0x0 } ∧ t.tx = s.tx) ∧
      (∀ k, (tokens (repPfx ++ body) 7).length ≤ k → Store.read t.lbuf k = Store.read s.lbuf k) ∧
      t.fifo = s.fifo ∧ t.enc = s.enc ∧ t.thr = s.thr ∧ t.cfg = s.cfg ∧ t.stim = s.stim ∧ t.cycle = s.cycle

/-- R211, R98, with the next state of R252 and R291; the instruction's span, to the terminator's edge and the state after it, is the
model's reading (log 11, DEDUCED). A LINK-B line without the RETURN prefix completes with one report NOT_REPLY; it writes nothing else but the
parser registers and goes to S_POLL_A. -/
def Obligations.OtherLineBOnlyReports : Prop :=
  ∀ (s : State) (content : List Byte), lineWf content = true → content.take 7 ≠ repPfx →
    ∃ t, exec (.lineOtherB content) s = .next t ∧
      t = { s with p := t.p, sch := { s.sch with st := 0x0 },
                   rpt := { valid := true, link := 1, kind := 4, index := 0, offset := 0, count := 0 } } ∧
      t.p.off.toNat = min (content.length + 1) 65535 ∧ t.p.ndata = 0 ∧ t.p.byteErr = false ∧ t.p.ovf = false

/-- The spec's inference of 44_scheduler.md section 3 (under R256), in the model's own form (log 3, log 11): a whole LINK-A line taken in one step is its clock edges: the state after, registers, storages,
report and cycle count, is the one its `len(c) + 2` edges reach. -/
def Obligations.LineAStepIsItsClockEdges : Prop :=
  ∀ (s : State) (content : List Byte) (rest : List Stimulus), legalConfig s.cfg = true → lineWf content = true →
    s.sch.st = stPollA → fifoAdmits s = true →
    step { s with stim := .bytesA (content ++ [termByte]) :: rest } =
      core.run (content.length + 2) { s with stim := lineEdgesA (content ++ [termByte]) ++ rest } ∧
    ∃ t, step { s with stim := .bytesA (content ++ [termByte]) :: rest } = .next t

/-- The spec's inference of 44_scheduler.md section 3 (under R256), in the model's own form (log 3, log 11): the same of a LINK-B
line. -/
def Obligations.LineBStepIsItsClockEdges : Prop :=
  ∀ (s : State) (content : List Byte) (rest : List Stimulus), legalConfig s.cfg = true → lineWf content = true →
    s.sch.st = stPollB →
    step { s with stim := .bytesB (content ++ [termByte]) :: rest } =
      core.run (content.length + 2) { s with stim := lineEdgesB (content ++ [termByte]) ++ rest } ∧
    ∃ t, step { s with stim := .bytesB (content ++ [termByte]) :: rest } = .next t

/-- R71, R73, R90 in the model's own form: the stimuli `bytesA` and `bytesB` and the list that holds them are log 1 and log 3
(DESIGN CHOICE), which let one step consume a whole line and offer nothing on the other link. No offered byte is lost or taken twice: the bytes offered are the bytes this step consumes, then the bytes
still offered. -/
def Obligations.OfferedBytesAreConsumedInOrder : Prop :=
  ∀ (s t : State) (bytes : List Byte) (rest : List Stimulus), step s = .next t →
    (s.stim = .bytesA bytes :: rest →
      ∃ left, bytes = s.consumedA ++ left ∧ s.consumedB = [] ∧
        t.stim = if left = [] then rest else .bytesA left :: rest) ∧
    (s.stim = .bytesB bytes :: rest →
      ∃ left, bytes = s.consumedB ++ left ∧ s.consumedA = [] ∧
        t.stim = if left = [] then rest else .bytesB left :: rest)

/-! ## The frame encoder -/

/-- R171: `encode(P, A)`: `nframes(len(P))` frames, frame k being payload bytes `k*PCAP` up to `min(len(P), (k+1)*PCAP)`, then
`A div 256`, then `A mod 256`. -/
def Obligations.EncodeSplitsThePayload : Prop :=
  ∀ (c : Config) (payload : List Byte) (a : Half), legalConfig c = true →
    (encodeFrames c payload a).length = nframes c payload.length ∧
    ∀ k f, (encodeFrames c payload a)[k]? = some f →
      f.length = min payload.length ((k + 1) * (c.chunkSize - 2)) - k * (c.chunkSize - 2) + 2 ∧
      (∀ j, k * (c.chunkSize - 2) + j < min payload.length ((k + 1) * (c.chunkSize - 2)) →
        f[j]? = payload[k * (c.chunkSize - 2) + j]?) ∧
      f[f.length - 2]? = some (BitVec.ofNat 8 (a.toNat / 256)) ∧ f[f.length - 1]? = some (BitVec.ofNat 8 (a.toNat % 256))

/-- The spec's inferences of 41_frame_encoder.md section 2 (under R174, R175, R176): every frame but the last is CHUNK_SIZE long, the
last of a non-empty payload at least 3; a payload of exactly CHUNK_SIZE - 2 bytes gives one frame of CHUNK_SIZE bytes; an empty
one gives the trailer alone. -/
def Obligations.FrameLengthsAreBounded : Prop :=
  ∀ (c : Config) (payload : List Byte) (a : Half), legalConfig c = true →
    (∀ k f, (encodeFrames c payload a)[k]? = some f → 2 ≤ f.length ∧ f.length ≤ c.chunkSize ∧
      (k + 1 < nframes c payload.length → f.length = c.chunkSize) ∧ (payload ≠ [] → 3 ≤ f.length)) ∧
    (payload.length = c.chunkSize - 2 → ∃ f, encodeFrames c payload a = [f] ∧ f.length = c.chunkSize) ∧
    (payload = [] → encodeFrames c payload a = [[BitVec.ofNat 8 (a.toNat / 256), BitVec.ofNat 8 (a.toNat % 256)]])

/-- R173 (its formula, and the spec's inference that a payload which fits LBUF gives at most N_MAX frames): no frame for no payload
byte but the one of the trailer, else as many frames of PCAP bytes as it takes. -/
def Obligations.FrameCountIsTheCeiling : Prop :=
  ∀ (c : Config) (n : Nat), legalConfig c = true →
    (n = 0 → nframes c n = 1) ∧
    (n ≠ 0 → (nframes c n - 1) * (c.chunkSize - 2) < n ∧ n ≤ nframes c n * (c.chunkSize - 2)) ∧
    (n ≤ c.lbufBytes → 1 ≤ nframes c n ∧ nframes c n ≤ nMax c)

/-- The spec's inference of 41_frame_encoder.md section 3 (under R178): `decode(encode(P, A))` is `(P, A)`. -/
def Obligations.DecodingTheFramesGivesPayloadAndAddress : Prop :=
  ∀ (c : Config) (payload : List Byte) (a : Half), legalConfig c = true →
    decodeFrames (encodeFrames c payload a) = (payload, a.toNat)

/-- R170, R179, R247: from the first edge in S_ENC, `nframes(ENC.L)` edges push exactly the frames of `encode(P, A)`, in order,
after what the FIFO held, and end in S_POLL_Q; nothing else changes but the report pulse. -/
def Obligations.EncStateEnqueuesAllFramesInOrder : Prop :=
  ∀ (s : State) (payload : List Byte) (ps : List Pins) (rest : List Stimulus), legalConfig s.cfg = true →
    s.sch.st = stEnc → s.enc.k = 0 → payload.length = s.enc.len.toNat → holds s.lbuf payload → FifoOk s →
    s.fifo.count.toNat + nframes s.cfg payload.length ≤ s.cfg.fifoDepth →
    ps.length = nframes s.cfg payload.length → (∀ p ∈ ps, calm p = true) → s.stim = ps.map Stimulus.edge ++ rest →
    ∃ t, core.run ps.length s = .next t ∧ t.sch = { s.sch with st := stPollQ } ∧
      fifoFrames t = fifoFrames s ++ (encodeFrames s.cfg payload s.enc.addr).map (fun b => some (padFrame s.cfg b)) ∧
      FifoOk t ∧ t.enc.k.toNat + 1 = nframes s.cfg payload.length ∧ t.enc.len = s.enc.len ∧ t.enc.addr = s.enc.addr ∧
      t.p = s.p ∧ t.lbuf = s.lbuf ∧ t.tx = s.tx ∧ t.thr = s.thr ∧ t.rpt = { s.rpt with valid := false } ∧
      t.cfg = s.cfg ∧ t.stim = rest ∧ t.cycle = s.cycle + ps.length

/-- R120 whole, counted in the model's steps: the line is one `bytesA` step (log 3, DESIGN CHOICE) that ends at its terminator
(log 11, DEDUCED), then one step for each S_ENC edge. An admitted DATA line whose outcome is CMD_OK, and the edges in S_ENC after it, put exactly `encode(payload, A)`
into the FIFO, behind what it held. -/
def Obligations.AcceptedCommandEnqueuesItsFrames : Prop :=
  ∀ (s : State) (body payload : List Byte) (a : Half) (ps : List Pins) (rest : List Stimulus),
    legalConfig s.cfg = true → lineWf body = true → parseCmd s.cfg (cmdPfx ++ body) = .ok payload a →
    s.sch.st = stPollA → fifoAdmits s = true → FifoOk s →
    ps.length = nframes s.cfg payload.length → (∀ p ∈ ps, calm p = true) →
    s.stim = .bytesA (cmdPfx ++ body ++ [termByte]) :: (ps.map Stimulus.edge ++ rest) →
    ∃ t, core.run (ps.length + 1) s = .next t ∧ t.sch.st = stPollQ ∧
      fifoFrames t = fifoFrames s ++ (encodeFrames s.cfg payload a).map (fun b => some (padFrame s.cfg b)) ∧
      FifoOk t ∧ t.tx = s.tx ∧ t.thr = s.thr ∧ t.stim = rest ∧ t.cycle = s.cycle + body.length + 7 + ps.length ∧
      t.rpt = { valid := false, link := 0, kind := 1, index := 0, offset := 0,
                count := BitVec.ofNat 16 (nframes s.cfg payload.length) }

/-! ## The FIFO -/

/-- R190: a push into a FIFO that is not full puts the frame behind the others, writes the entry at the write pointer and no
other, and changes nothing outside the FIFO; a push into a full one is the fault FIFO_PUSH_FULL. -/
def Obligations.PushAppendsAFrame : Prop :=
  decode (.fifo 0b10 Frame.idle) = .ok (.fifoPush Frame.idle) ∧
  ∀ (s : State) (f : Frame), FifoOk s →
    (s.fifo.count.toNat = s.cfg.fifoDepth → exec (.fifoPush f) s = .fault .fifoPushFull) ∧
    (s.fifo.count.toNat ≠ s.cfg.fifoDepth →
      ∃ t, exec (.fifoPush f) s = .next t ∧ FifoOk t ∧ fifoFrames t = fifoFrames s ++ [some f] ∧
        t.fifo.count.toNat = s.fifo.count.toNat + 1 ∧
        t.fifo.wptr.toNat = (s.fifo.wptr.toNat + 1) % s.cfg.fifoDepth ∧ t.fifo.rptr = s.fifo.rptr ∧
        Store.read t.fifo.mem s.fifo.wptr.toNat = some f ∧
        (∀ k, k ≠ s.fifo.wptr.toNat → Store.read t.fifo.mem k = Store.read s.fifo.mem k) ∧
        t = { s with fifo := t.fifo })

/-- R191: a pop takes the head frame, advances the read pointer and clears no entry; a pop from an empty FIFO is the fault
FIFO_POP_EMPTY. The frame goes to TX.buf (R70, R77) and TX.len (R248) (log 9, the model's reading); nothing else changes. -/
def Obligations.PopTakesTheHeadFrame : Prop :=
  decode (.fifo 0b01 Frame.idle) = .ok .fifoPop ∧
  ∀ (s : State), FifoOk s →
    (s.fifo.count = 0 → exec .fifoPop s = .fault .fifoPopEmpty) ∧
    (∀ f fs, fifoFrames s = some f :: fs →
      ∃ t, exec .fifoPop s = .next t ∧ FifoOk t ∧ fifoFrames t = fs ∧
        t.fifo.mem = s.fifo.mem ∧ t.fifo.wptr = s.fifo.wptr ∧
        t.fifo.rptr.toNat = (s.fifo.rptr.toNat + 1) % s.cfg.fifoDepth ∧
        t.fifo.count.toNat + 1 = s.fifo.count.toNat ∧
        t.tx = { s.tx with buf := some f.data, len := f.len } ∧ t = { s with fifo := t.fifo, tx := t.tx })

/-- R192: a push and a pop at one edge: the old head leaves, the new frame goes behind the rest, the count does not change,
also on a full FIFO and at depth 1; on an empty FIFO it is the fault FIFO_POP_EMPTY. The popped frame goes to TX.buf and
TX.len (log 9, the model's reading). -/
def Obligations.PushPopReplacesTheHead : Prop :=
  decode (.fifo 0b11 Frame.idle) = .ok (.fifoPushPop Frame.idle) ∧
  ∀ (s : State) (g : Frame), FifoOk s →
    (s.fifo.count = 0 → exec (.fifoPushPop g) s = .fault .fifoPopEmpty) ∧
    (∀ f fs, fifoFrames s = some f :: fs →
      ∃ t, exec (.fifoPushPop g) s = .next t ∧ FifoOk t ∧ fifoFrames t = fs ++ [some g] ∧
        t.fifo.count = s.fifo.count ∧
        t.fifo.rptr.toNat = (s.fifo.rptr.toNat + 1) % s.cfg.fifoDepth ∧
        t.fifo.wptr.toNat = (s.fifo.wptr.toNat + 1) % s.cfg.fifoDepth ∧
        (∀ k, k ≠ s.fifo.wptr.toNat → Store.read t.fifo.mem k = Store.read s.fifo.mem k) ∧
        t.tx = { s.tx with buf := some f.data, len := f.len } ∧ t = { s with fifo := t.fifo, tx := t.tx })

/-- The spec's inference of 42_pending_queue.md section 3 (under R195), the popped frames read in TX.buf and TX.len (log 9): from an
empty FIFO, whatever pushes and pops are made, the frames popped are the frames pushed, in the same
order, up to those still held. -/
def Obligations.FramesLeaveInTheOrderTheyEntered : Prop :=
  ∀ (ops : List (Option Frame)) (s t : State) (popped : List Frame), FifoOk s → s.fifo.count = 0 →
    fifoTrace ops s = some (popped, t) →
    (ops.filterMap id).map some = popped.map some ++ fifoFrames t

/-! ## Transmission and the throttle -/

/-- R96, R249: a frame of m bytes is sent on LINK-B as its m bytes, then 0x0A, in m + 1 edges with a ready sink; then the
throttle starts, or S_POLL_B where THROTTLE_CYCLES is 0. No byte is escaped and LINK-A sends nothing. -/
def Obligations.FrameIsSentWithItsTerminator : Prop :=
  ∀ (s : State) (d : List Byte) (ps : List Pins) (rest : List Stimulus), legalConfig s.cfg = true →
    s.sch.st = stTxB → s.tx.idx = 0 → s.tx.buf = some d → s.tx.len.toNat ≤ d.length →
    ps.length = s.tx.len.toNat + 1 → (∀ p ∈ ps, calm p = true ∧ p.bTxReady = true) →
    s.stim = ps.map Stimulus.edge ++ rest →
    sentB ps.length s = d.take s.tx.len.toNat ++ [0x0A] ∧ sentA ps.length s = [] ∧
    ∃ t, core.run ps.length s = .next t ∧ t.tx = { s.tx with idx := s.tx.len } ∧
      (s.cfg.throttleCycles = 0 → t.sch = { s.sch with st := stPollB } ∧ t.thr = s.thr) ∧
      (s.cfg.throttleCycles ≠ 0 → t.sch = { s.sch with st := stThrottle } ∧ t.thr = s.cfg.throttleCycles) ∧
      t.fifo = s.fifo ∧ t.lbuf = s.lbuf ∧ t.p = s.p ∧ t.enc = s.enc ∧ t.stim = rest

/-- R97, R253: a reply of r bytes is sent on LINK-A as its r bytes, then 0x0A, in r + 1 edges with a ready sink; then S_POLL_A.
No byte is escaped and LINK-B sends nothing. -/
def Obligations.ReplyIsSentWithItsTerminator : Prop :=
  ∀ (s : State) (bs : List Byte) (ps : List Pins) (rest : List Stimulus), legalConfig s.cfg = true →
    s.sch.st = stTxA → s.tx.idx = 0 → s.tx.len.toNat = bs.length → holds s.lbuf bs →
    ps.length = bs.length + 1 → (∀ p ∈ ps, calm p = true ∧ p.aTxReady = true) →
    s.stim = ps.map Stimulus.edge ++ rest →
    sentA ps.length s = bs ++ [0x0A] ∧ sentB ps.length s = [] ∧
    ∃ t, core.run ps.length s = .next t ∧ t.sch = { s.sch with st := stPollA } ∧ t.tx = { s.tx with idx := s.tx.len } ∧
      t.thr = s.thr ∧ t.fifo = s.fifo ∧ t.lbuf = s.lbuf ∧ t.p = s.p ∧ t.enc = s.enc ∧ t.stim = rest

/-- R210 whole, counted in the model's steps: the line is one `bytesB` step (log 3, DESIGN CHOICE) that ends at its terminator
(log 11, DEDUCED), then one step for each S_TX_A edge. A RETURN line whose outcome is REPLY_OK, and the edges in S_TX_A after it, send exactly its bytes and 0x0A on
LINK-A. -/
def Obligations.AcceptedReplyIsSentOnLinkA : Prop :=
  ∀ (s : State) (body bs : List Byte) (ps : List Pins) (rest : List Stimulus),
    legalConfig s.cfg = true → lineWf body = true → parseReply s.cfg (repPfx ++ body) = .ok bs →
    s.sch.st = stPollB → ps.length = bs.length + 1 → (∀ p ∈ ps, calm p = true ∧ p.aTxReady = true) →
    s.stim = .bytesB (repPfx ++ body ++ [termByte]) :: (ps.map Stimulus.edge ++ rest) →
    sentA (ps.length + 1) s = bs ++ [0x0A] ∧ sentB (ps.length + 1) s = [] ∧
    ∃ t, core.run (ps.length + 1) s = .next t ∧ t.sch.st = stPollA ∧ t.fifo = s.fifo ∧ t.enc = s.enc ∧ t.thr = s.thr ∧
      t.tx.buf = s.tx.buf ∧ t.stim = rest ∧ t.cycle = s.cycle + body.length + 9 + ps.length ∧
      t.rpt = { valid := false, link := 1, kind := 2, index := 0, offset := 0, count := BitVec.ofNat 16 bs.length }

/-- R250, R333: entered with a count of n, S_THROTTLE lasts exactly n edges, in which no byte moves on any stream and nothing
but THR.cnt and the report pulse changes; then S_POLL_B. -/
def Obligations.ThrottleLastsItsCount : Prop :=
  ∀ (s : State) (ps : List Pins) (rest : List Stimulus), legalConfig s.cfg = true → s.sch.st = stThrottle →
    1 ≤ ps.length → s.thr.toNat = ps.length → (∀ p ∈ ps, calm p = true) → s.stim = ps.map Stimulus.edge ++ rest →
    (∀ j t, j < ps.length → core.run j s = .next t →
      t.sch.st = stThrottle ∧ t.moves = { aRx := none, aTx := none, bRx := none, bTx := none }) ∧
    core.run ps.length s = .next { s with
      sch := { s.sch with st := stPollB }, thr := 0, rpt := { s.rpt with valid := false }, stim := rest,
      cycle := s.cycle + ps.length }

/-- The spec's inference of 44_scheduler.md section 3 (under R257): after an edge that moves a frame's terminator, LINK-B is idle for at least THROTTLE_CYCLES + 3 clock cycles,
whatever the environment does short of a reset. -/
def Obligations.FramesAreSpacedByTheThrottle : Prop :=
  ∀ (s t : State) (ps : List Pins) (rest : List Stimulus) (j : Nat), s.stim = ps.map Stimulus.edge ++ rest →
    s.sch.st = stTxB → s.tx.idx = s.tx.len → calm s.pins = true → s.pins.bTxReady = true →
    (∀ p ∈ ps, p.rst = false) → 1 ≤ j → j ≤ s.cfg.throttleCycles.toNat + 3 → j ≤ ps.length →
    core.run j s = .next t → t.outputs.bTxValid = false

/-! ## Invariants -/

/-- R321, R6 (log 5 for the two OPEN parameters, which stay free): the reset state meets the invariant. -/
def Obligations.ResetStateMeetsTheInvariant : Prop :=
  State.Inv State.reset

/-- R21, R31, R193, R245, R253, R331: every step keeps the invariant. -/
def Obligations.EveryStepKeepsTheInvariant : Prop :=
  ∀ (s t : State), s.Inv → step s = .next t → t.Inv

/-- The spec's inference of 60_exceptions.md section 5 (the faults of R309 are unreachable): no model fault and no refusal happens in a state that meets the invariant: every step answers a next state,
whatever the inputs. -/
def Obligations.InvariantStatesAlwaysStep : Prop :=
  ∀ (s : State), s.Inv → ∃ t, step s = .next t

/-- R309, R105, R194, R322: what the invariant rules out stops by name: the reserved parser phase, a push of S_ENC into a full
FIFO, a read of a storage element with no value. The model's own: the reserved phase faults where a byte step reads it (log 20,
DEDUCED); S_TX_B and S_TX_A fault whether or not the sink is ready (log
7, DEDUCED); a FIFO count above FIFO_DEPTH is full too (log 10, DEDUCED); a byte past those TX.buf holds has no value, and a
P.pfx_i past the link's prefix, an ENC.k past the last frame, a FIFO pointer past the last entry is the model's fault (log 8,
DESIGN CHOICE). -/
def Obligations.UnreachableRegistersFaultByName : Prop :=
  ∀ (s : State),
    (s.p.phase = 3 → s.pins.aRxValid = true → exec .sRxA s = .fault .reservedPhase) ∧
    (s.p.phase = 3 → s.pins.bRxValid = true → exec .sRxB s = .fault .reservedPhase) ∧
    (∀ payload, legalConfig s.cfg = true → payload.length = s.enc.len.toNat → holds s.lbuf payload →
      s.enc.k.toNat < nframes s.cfg s.enc.len.toNat → s.cfg.fifoDepth ≤ s.fifo.count.toNat →
      exec .sEnc s = .fault .fifoPushFull) ∧
    (∀ j, legalConfig s.cfg = true → s.enc.k.toNat < nframes s.cfg s.enc.len.toNat →
      s.enc.k.toNat * (s.cfg.chunkSize - 2) ≤ j → j < s.enc.len.toNat → j < (s.enc.k.toNat + 1) * (s.cfg.chunkSize - 2) →
      Store.read s.lbuf j = none → exec .sEnc s = .fault .noValueRead) ∧
    (s.fifo.count ≠ 0 → s.fifo.rptr.toNat < s.cfg.fifoDepth → Store.read s.fifo.mem s.fifo.rptr.toNat = none →
      exec .sPollQ s = .fault .noValueRead ∧ exec .fifoPop s = .fault .noValueRead ∧
      (∀ g, s.fifo.wptr.toNat < s.cfg.fifoDepth → exec (.fifoPushPop g) s = .fault .noValueRead)) ∧
    (s.tx.idx.toNat < s.tx.len.toNat → s.tx.buf = none → exec .sTxB s = .fault .noValueRead) ∧
    (∀ d, s.tx.idx.toNat < s.tx.len.toNat → s.tx.buf = some d → d.length ≤ s.tx.idx.toNat →
      exec .sTxB s = .fault .noValueRead) ∧
    (s.tx.idx.toNat < s.tx.len.toNat → Store.read s.lbuf s.tx.idx.toNat = none → exec .sTxA s = .fault .noValueRead) ∧
    (s.p.phase = 0 → 5 ≤ s.p.pfxI.toNat → s.pins.aRxValid = true → s.pins.aRxData ≠ 0x0A →
      exec .sRxA s = .fault .indexOutOfRange) ∧
    (s.p.phase = 0 → s.p.pfxI = 7 → s.pins.bRxValid = true → s.pins.bRxData ≠ 0x0A →
      exec .sRxB s = .fault .indexOutOfRange) ∧
    (nframes s.cfg s.enc.len.toNat ≤ s.enc.k.toNat → exec .sEnc s = .fault .indexOutOfRange) ∧
    (s.fifo.count ≠ 0 → s.cfg.fifoDepth ≤ s.fifo.rptr.toNat →
      exec .sPollQ s = .fault .indexOutOfRange ∧ exec .fifoPop s = .fault .indexOutOfRange ∧
      ∀ g, exec (.fifoPushPop g) s = .fault .indexOutOfRange) ∧
    (s.fifo.count ≠ 0 → s.cfg.fifoDepth ≤ s.fifo.wptr.toNat → ∀ g, exec (.fifoPushPop g) s = .fault .indexOutOfRange) ∧
    (s.fifo.count.toNat < s.cfg.fifoDepth → s.cfg.fifoDepth ≤ s.fifo.wptr.toNat →
      (∀ f, exec (.fifoPush f) s = .fault .indexOutOfRange) ∧
      ∀ payload, legalConfig s.cfg = true → payload.length = s.enc.len.toNat → holds s.lbuf payload →
        s.enc.k.toNat < nframes s.cfg s.enc.len.toNat → exec .sEnc s = .fault .indexOutOfRange)

/-- R34, R36, R70: every step, from any state, keeps both indexed storages in their canonical form. -/
def Obligations.StoragesStayCanonical : Prop :=
  ∀ (s t : State), Store.wf s.lbuf = true → Store.wf s.fifo.mem = true → step s = .next t →
    Store.wf t.lbuf = true ∧ Store.wf t.fifo.mem = true

/-- The spec's inference of 70_reset_and_hazards.md section 2 (under R331): the report is a pulse: it is never valid in two consecutive clock cycles. -/
def Obligations.ReportIsAOneCyclePulse : Prop :=
  ∀ (s t : State), s.Inv → step s = .next t → t.cycle = s.cycle + 1 → s.rpt.valid = true → t.rpt.valid = false
end

