-- ==== Sys2Proof/Laws/State.lean ====
section
/-! SUPPORT. The fields of State after each named update: one lemma per field, true by rfl, so that no proof unfolds a record
update. -/

namespace Sys2Proof.Machine

@[simp] theorem State.setSt_sch (s : State) (v : BitVec 4) : (s.setSt v).sch = { s.sch with st := v } := rfl
@[simp] theorem State.setSt_p (s : State) (v : BitVec 4) : (s.setSt v).p = s.p := rfl
@[simp] theorem State.setSt_lbuf (s : State) (v : BitVec 4) : (s.setSt v).lbuf = s.lbuf := rfl
@[simp] theorem State.setSt_enc (s : State) (v : BitVec 4) : (s.setSt v).enc = s.enc := rfl
@[simp] theorem State.setSt_fifo (s : State) (v : BitVec 4) : (s.setSt v).fifo = s.fifo := rfl
@[simp] theorem State.setSt_tx (s : State) (v : BitVec 4) : (s.setSt v).tx = s.tx := rfl
@[simp] theorem State.setSt_thr (s : State) (v : BitVec 4) : (s.setSt v).thr = s.thr := rfl
@[simp] theorem State.setSt_rpt (s : State) (v : BitVec 4) : (s.setSt v).rpt = s.rpt := rfl
@[simp] theorem State.setSt_cfg (s : State) (v : BitVec 4) : (s.setSt v).cfg = s.cfg := rfl
@[simp] theorem State.setSt_stim (s : State) (v : BitVec 4) : (s.setSt v).stim = s.stim := rfl
@[simp] theorem State.setSt_cycle (s : State) (v : BitVec 4) : (s.setSt v).cycle = s.cycle := rfl

@[simp] theorem State.report_sch (s : State) (l : BitVec 1) (o : LineOutcome) : (s.report l o).sch = s.sch := rfl
@[simp] theorem State.report_p (s : State) (l : BitVec 1) (o : LineOutcome) : (s.report l o).p = s.p := rfl
@[simp] theorem State.report_lbuf (s : State) (l : BitVec 1) (o : LineOutcome) : (s.report l o).lbuf = s.lbuf := rfl
@[simp] theorem State.report_enc (s : State) (l : BitVec 1) (o : LineOutcome) : (s.report l o).enc = s.enc := rfl
@[simp] theorem State.report_fifo (s : State) (l : BitVec 1) (o : LineOutcome) : (s.report l o).fifo = s.fifo := rfl
@[simp] theorem State.report_tx (s : State) (l : BitVec 1) (o : LineOutcome) : (s.report l o).tx = s.tx := rfl
@[simp] theorem State.report_thr (s : State) (l : BitVec 1) (o : LineOutcome) : (s.report l o).thr = s.thr := rfl
@[simp] theorem State.report_rpt (s : State) (l : BitVec 1) (o : LineOutcome) : (s.report l o).rpt = { valid := true, link := l, kind := o.kind, index := o.index, offset := o.offset, count := o.count } := rfl
@[simp] theorem State.report_cfg (s : State) (l : BitVec 1) (o : LineOutcome) : (s.report l o).cfg = s.cfg := rfl
@[simp] theorem State.report_stim (s : State) (l : BitVec 1) (o : LineOutcome) : (s.report l o).stim = s.stim := rfl
@[simp] theorem State.report_cycle (s : State) (l : BitVec 1) (o : LineOutcome) : (s.report l o).cycle = s.cycle := rfl

@[simp] theorem State.clearReport_sch (s : State) : s.clearReport.sch = s.sch := rfl
@[simp] theorem State.clearReport_p (s : State) : s.clearReport.p = s.p := rfl
@[simp] theorem State.clearReport_lbuf (s : State) : s.clearReport.lbuf = s.lbuf := rfl
@[simp] theorem State.clearReport_enc (s : State) : s.clearReport.enc = s.enc := rfl
@[simp] theorem State.clearReport_fifo (s : State) : s.clearReport.fifo = s.fifo := rfl
@[simp] theorem State.clearReport_tx (s : State) : s.clearReport.tx = s.tx := rfl
@[simp] theorem State.clearReport_thr (s : State) : s.clearReport.thr = s.thr := rfl
@[simp] theorem State.clearReport_rpt (s : State) : s.clearReport.rpt = { s.rpt with valid := false } := rfl
@[simp] theorem State.clearReport_cfg (s : State) : s.clearReport.cfg = s.cfg := rfl
@[simp] theorem State.clearReport_stim (s : State) : s.clearReport.stim = s.stim := rfl
@[simp] theorem State.clearReport_cycle (s : State) : s.clearReport.cycle = s.cycle := rfl

@[simp] theorem State.latchFrame_sch (s : State) (e : Frame) : (s.latchFrame e).sch = s.sch := rfl
@[simp] theorem State.latchFrame_p (s : State) (e : Frame) : (s.latchFrame e).p = s.p := rfl
@[simp] theorem State.latchFrame_lbuf (s : State) (e : Frame) : (s.latchFrame e).lbuf = s.lbuf := rfl
@[simp] theorem State.latchFrame_enc (s : State) (e : Frame) : (s.latchFrame e).enc = s.enc := rfl
@[simp] theorem State.latchFrame_fifo (s : State) (e : Frame) : (s.latchFrame e).fifo = s.fifo := rfl
@[simp] theorem State.latchFrame_tx (s : State) (e : Frame) : (s.latchFrame e).tx = { s.tx with buf := some e.data, len := e.len } := rfl
@[simp] theorem State.latchFrame_thr (s : State) (e : Frame) : (s.latchFrame e).thr = s.thr := rfl
@[simp] theorem State.latchFrame_rpt (s : State) (e : Frame) : (s.latchFrame e).rpt = s.rpt := rfl
@[simp] theorem State.latchFrame_cfg (s : State) (e : Frame) : (s.latchFrame e).cfg = s.cfg := rfl
@[simp] theorem State.latchFrame_stim (s : State) (e : Frame) : (s.latchFrame e).stim = s.stim := rfl
@[simp] theorem State.latchFrame_cycle (s : State) (e : Frame) : (s.latchFrame e).cycle = s.cycle := rfl

@[simp] theorem enterStop_sch (s : State) (v : BitVec 4) (a b : Bool) : (enterStop s v a b).sch = { st := v, stopCause := if v = stStopError then BitVec.ofNat 2 (b.toNat * 2 + a.toNat) else 0 } := rfl
@[simp] theorem enterStop_p (s : State) (v : BitVec 4) (a b : Bool) : (enterStop s v a b).p = s.p := rfl
@[simp] theorem enterStop_lbuf (s : State) (v : BitVec 4) (a b : Bool) : (enterStop s v a b).lbuf = s.lbuf := rfl
@[simp] theorem enterStop_enc (s : State) (v : BitVec 4) (a b : Bool) : (enterStop s v a b).enc = s.enc := rfl
@[simp] theorem enterStop_fifo (s : State) (v : BitVec 4) (a b : Bool) : (enterStop s v a b).fifo = s.fifo := rfl
@[simp] theorem enterStop_tx (s : State) (v : BitVec 4) (a b : Bool) : (enterStop s v a b).tx = s.tx := rfl
@[simp] theorem enterStop_thr (s : State) (v : BitVec 4) (a b : Bool) : (enterStop s v a b).thr = s.thr := rfl
@[simp] theorem enterStop_rpt (s : State) (v : BitVec 4) (a b : Bool) : (enterStop s v a b).rpt = { s.rpt with valid := false } := rfl
@[simp] theorem enterStop_cfg (s : State) (v : BitVec 4) (a b : Bool) : (enterStop s v a b).cfg = s.cfg := rfl
@[simp] theorem enterStop_stim (s : State) (v : BitVec 4) (a b : Bool) : (enterStop s v a b).stim = s.stim := rfl
@[simp] theorem enterStop_cycle (s : State) (v : BitVec 4) (a b : Bool) : (enterStop s v a b).cycle = s.cycle := rfl

@[simp] theorem doReset_sch (s : State) : (doReset s).sch = State.reset.sch := rfl
@[simp] theorem doReset_p (s : State) : (doReset s).p = State.reset.p := rfl
@[simp] theorem doReset_lbuf (s : State) : (doReset s).lbuf = State.reset.lbuf := rfl
@[simp] theorem doReset_enc (s : State) : (doReset s).enc = State.reset.enc := rfl
@[simp] theorem doReset_fifo (s : State) : (doReset s).fifo = State.reset.fifo := rfl
@[simp] theorem doReset_tx (s : State) : (doReset s).tx = State.reset.tx := rfl
@[simp] theorem doReset_thr (s : State) : (doReset s).thr = State.reset.thr := rfl
@[simp] theorem doReset_rpt (s : State) : (doReset s).rpt = State.reset.rpt := rfl
@[simp] theorem doReset_cfg (s : State) : (doReset s).cfg = s.cfg := rfl
@[simp] theorem doReset_stim (s : State) : (doReset s).stim = s.stim := rfl
@[simp] theorem doReset_cycle (s : State) : (doReset s).cycle = s.cycle := rfl

@[simp] theorem State.after_sch (t s : State) (n : Nat) : (t.after s n).sch = t.sch := rfl
@[simp] theorem State.after_p (t s : State) (n : Nat) : (t.after s n).p = t.p := rfl
@[simp] theorem State.after_lbuf (t s : State) (n : Nat) : (t.after s n).lbuf = t.lbuf := rfl
@[simp] theorem State.after_enc (t s : State) (n : Nat) : (t.after s n).enc = t.enc := rfl
@[simp] theorem State.after_fifo (t s : State) (n : Nat) : (t.after s n).fifo = t.fifo := rfl
@[simp] theorem State.after_tx (t s : State) (n : Nat) : (t.after s n).tx = t.tx := rfl
@[simp] theorem State.after_thr (t s : State) (n : Nat) : (t.after s n).thr = t.thr := rfl
@[simp] theorem State.after_rpt (t s : State) (n : Nat) : (t.after s n).rpt = t.rpt := rfl
@[simp] theorem State.after_cfg (t s : State) (n : Nat) : (t.after s n).cfg = t.cfg := rfl
@[simp] theorem State.after_stim (t s : State) (n : Nat) : (t.after s n).stim = s.restStim := rfl
@[simp] theorem State.after_cycle (t s : State) (n : Nat) : (t.after s n).cycle = s.cycle + n := rfl

end Sys2Proof.Machine
end

