-- ==== Sys2Proof/Laws/Storage.lean ====
section
/-! SUPPORT. The storages: read after write, the canonical form and that a write keeps it, and what a range read gives. -/

namespace Sys2Proof.Machine

@[simp] theorem Store.read_nil {α : Type} (i : Nat) : Store.read ([] : Store α) i = none := rfl

theorem Store.read_write_same {α : Type} (m : Store α) (i : Nat) (v : α) :
    Store.read (Store.write m i v) i = some v := by
  induction m with
  | nil => simp [Store.write, Store.read]
  | cons x rest ih =>
    obtain ⟨j, w⟩ := x
    simp only [Store.write]
    split
    · simp [Store.read]
    · split
      · simp [Store.read]
      · next h => simp [Store.read, h, ih]

theorem Store.read_write_ne {α : Type} (m : Store α) {i k : Nat} (v : α) (h : k ≠ i) :
    Store.read (Store.write m i v) k = Store.read m k := by
  induction m with
  | nil => simp [Store.write, Store.read, h]
  | cons x rest ih =>
    obtain ⟨j, w⟩ := x
    simp only [Store.write]
    split
    · simp [Store.read, h]
    · split
      · next hij => subst hij; simp [Store.read, h]
      · simp only [Store.read, ih]

/-- What a write leaves: the value at its index, every other index as before. -/
theorem Store.read_write {α : Type} (m : Store α) (i k : Nat) (v : α) :
    Store.read (Store.write m i v) k = if k = i then some v else Store.read m k := by
  split
  · next h => subst h; exact Store.read_write_same m k v
  · next h => exact Store.read_write_ne m v h

theorem Store.wf_iff {α : Type} (m : Store α) : Store.wf m = true ↔ m.Pairwise (fun a b => a.1 < b.1) := by
  induction m with
  | nil => simp [Store.wf]
  | cons x rest ih =>
    cases rest with
    | nil => simp [Store.wf]
    | cons y rest =>
      obtain ⟨i, v⟩ := x
      obtain ⟨j, w⟩ := y
      simp only [Store.wf, Bool.and_eq_true, decide_eq_true_eq, ih, List.pairwise_cons, List.mem_cons]
      constructor
      · rintro ⟨hij, hj, hr⟩
        refine ⟨?_, hj, hr⟩
        rintro b (rfl | hb)
        · exact hij
        · exact lt_trans hij (hj b hb)
      · rintro ⟨hi, hj, hr⟩
        exact ⟨hi (j, w) (.inl rfl), hj, hr⟩

theorem Store.mem_write {α : Type} {m : Store α} {i : Nat} {v : α} {x : Nat × α} (h : x ∈ Store.write m i v) :
    x.1 = i ∨ x ∈ m := by
  induction m with
  | nil => simp only [Store.write, List.mem_singleton] at h; exact .inl (by rw [h])
  | cons y rest ih =>
    obtain ⟨j, w⟩ := y
    simp only [Store.write] at h
    split at h
    · rcases List.mem_cons.1 h with rfl | h
      · exact .inl rfl
      · exact .inr h
    · split at h
      · rcases List.mem_cons.1 h with rfl | h
        · exact .inl rfl
        · exact .inr (List.mem_cons_of_mem _ h)
      · rcases List.mem_cons.1 h with rfl | h
        · exact .inr List.mem_cons_self
        · exact (ih h).imp_right (List.mem_cons_of_mem _)

/-- A write keeps the canonical form. -/
theorem Store.write_wf {α : Type} {m : Store α} (i : Nat) (v : α) (h : Store.wf m = true) :
    Store.wf (Store.write m i v) = true := by
  rw [Store.wf_iff] at *
  induction m with
  | nil => simp [Store.write]
  | cons y rest ih =>
    obtain ⟨j, w⟩ := y
    obtain ⟨hj, hr⟩ := List.pairwise_cons.1 h
    simp only [Store.write]
    split
    · next hij =>
      refine List.pairwise_cons.2 ⟨?_, h⟩
      intro b hb
      rcases List.mem_cons.1 hb with rfl | hb
      · exact hij
      · exact lt_trans hij (hj b hb)
    · split
      · next hij => subst hij; exact List.pairwise_cons.2 ⟨hj, hr⟩
      · next h1 h2 =>
        refine List.pairwise_cons.2 ⟨?_, ih hr⟩
        intro b hb
        rcases Store.mem_write hb with hb | hb
        · simp only [hb]; omega
        · exact hj b hb

/-- A write of a byte storage keeps the canonical form. -/
theorem Memory.write_wf {m : Memory} (i : Nat) (v : Byte) (h : Memory.wf m = true) :
    Memory.wf (Store.write m i v) = true := Store.write_wf i v h

theorem reset_lbuf_wf : Memory.wf State.reset.lbuf = true := rfl

theorem reset_fifo_wf : Store.wf State.reset.fifo.mem = true := rfl

theorem Store.read_eq_none {α : Type} {m : Store α} {i : Nat} (h : ∀ x ∈ m, i < x.1) : Store.read m i = none := by
  induction m with
  | nil => rfl
  | cons x rest ih =>
    obtain ⟨j, w⟩ := x
    have hj : i < j := h (j, w) List.mem_cons_self
    simp only [Store.read, show ¬ i = j by omega, if_false]
    exact ih fun y hy => h y (List.mem_cons_of_mem _ hy)

/-- Canonical storages that read the same at every index are the same list. -/
theorem Store.ext_of_wf {α : Type} {m n : Store α} (hm : Store.wf m = true) (hn : Store.wf n = true)
    (h : ∀ i, Store.read m i = Store.read n i) : m = n := by
  rw [Store.wf_iff] at hm hn
  induction m generalizing n with
  | nil =>
    cases n with
    | nil => rfl
    | cons y n => have := h y.1; simp [Store.read] at this
  | cons x m ih =>
    obtain ⟨i, v⟩ := x
    obtain ⟨hi, hm'⟩ := List.pairwise_cons.1 hm
    cases n with
    | nil => have := h i; simp [Store.read] at this
    | cons y n =>
      obtain ⟨j, w⟩ := y
      obtain ⟨hj, hn'⟩ := List.pairwise_cons.1 hn
      have hij : i = j := by
        rcases lt_trichotomy i j with hlt | heq | hgt
        · have h1 := h i
          have h2 : Store.read ((j, w) :: n) i = none := Store.read_eq_none (by
            intro x hx
            rcases List.mem_cons.1 hx with rfl | hx
            · exact hlt
            · exact lt_trans hlt (hj x hx))
          rw [h2] at h1; simp [Store.read] at h1
        · exact heq
        · have h1 := h j
          have h2 : Store.read ((i, v) :: m) j = none := Store.read_eq_none (by
            intro x hx
            rcases List.mem_cons.1 hx with rfl | hx
            · exact hgt
            · exact lt_trans hgt (hi x hx))
          rw [h2] at h1; simp [Store.read] at h1
      subst hij
      have hv : v = w := by have := h i; simpa [Store.read] using this
      subst hv
      congr 1
      refine ih hm' hn' fun k => ?_
      by_cases hk : k = i
      · subst hk; rw [Store.read_eq_none hi, Store.read_eq_none hj]
      · have := h k; simpa [Store.read, hk] using this

/-- A range read that answers gives as many bytes as asked. -/
theorem readRange_length {m : Memory} {i n : Nat} {bs : List Byte} (h : readRange m i n = .ok bs) : bs.length = n := by
  induction n generalizing i bs with
  | zero => simp only [readRange, Except.ok.injEq] at h; simp [← h]
  | succ n ih =>
    simp only [readRange] at h
    split at h
    · cases h
    · split at h
      · cases h
      · next hr => cases h; simp [ih hr]

/-- Where every byte of a range has a value, the range read gives those values. -/
theorem readRange_ok {m : Memory} {i : Nat} {bs : List Byte}
    (h : ∀ k, k < bs.length → Store.read m (i + k) = bs[k]?) : readRange m i bs.length = .ok bs := by
  induction bs generalizing i with
  | nil => rfl
  | cons b bs ih =>
    have h0 : Store.read m i = some b := by simpa using h 0 (by simp)
    have ht : readRange m (i + 1) bs.length = .ok bs := by
      refine ih fun k hk => ?_
      have := h (k + 1) (by simpa using hk)
      simpa [Nat.add_assoc, Nat.add_comm 1] using this
    simp [readRange, h0, ht]

/-- The only fault of a range read. -/
theorem readRange_error {m : Memory} {i n : Nat} {e : Fault} (h : readRange m i n = .error e) : e = .noValueRead := by
  induction n generalizing i with
  | zero => simp [readRange] at h
  | succ n ih =>
    simp only [readRange] at h
    split at h
    · exact (Except.error.inj h).symm
    · split at h
      · next hr => cases h; exact ih hr
      · cases h

end Sys2Proof.Machine
end

