-- ==== Sys2Proof/Laws/Fifo.lean ====
section
/-! SUPPORT. What the FIFO operations can do, said once each. -/

namespace Sys2Proof.Machine

/-- All that `fifo_push` does when it answers (R190). -/
theorem fifoPush_ok {s t : State} {f : Frame} (h : fifoPush s f = .ok t) :
    s.fifo.count.toNat < s.cfg.fifoDepth ∧ s.fifo.wptr.toNat < s.cfg.fifoDepth ∧
    t = { s with fifo := {
      mem := Store.write s.fifo.mem s.fifo.wptr.toNat f
      wptr := BitVec.ofNat 16 ((s.fifo.wptr.toNat + 1) % s.cfg.fifoDepth)
      rptr := s.fifo.rptr
      count := BitVec.ofNat 16 (s.fifo.count.toNat + 1) } } := by
  unfold fifoPush at h
  split at h
  · cases h
  · split at h
    · cases h
    · next h1 h2 => cases h; exact ⟨by omega, by omega, rfl⟩

/-- All that `fifo_pop` does when it answers (R191). -/
theorem fifoPop_ok {s t : State} {e : Frame} (h : fifoPop s = .ok (e, t)) :
    s.fifo.count ≠ 0 ∧ s.fifo.rptr.toNat < s.cfg.fifoDepth ∧
    Store.read s.fifo.mem s.fifo.rptr.toNat = some e ∧
    t = { s with fifo := {
      mem := s.fifo.mem
      wptr := s.fifo.wptr
      rptr := BitVec.ofNat 16 ((s.fifo.rptr.toNat + 1) % s.cfg.fifoDepth)
      count := BitVec.ofNat 16 (s.fifo.count.toNat - 1) } } := by
  unfold fifoPop at h
  split at h
  · cases h
  next h1 =>
    split at h
    · cases h
    next h2 =>
      split at h
      · cases h
      · next hr => cases h; exact ⟨h1, by omega, hr, rfl⟩

/-- All that `fifo_pushpop` does when it answers (R192). -/
theorem fifoPushPop_ok {s t : State} {f e : Frame} (h : fifoPushPop s f = .ok (e, t)) :
    s.fifo.count ≠ 0 ∧ s.fifo.rptr.toNat < s.cfg.fifoDepth ∧ s.fifo.wptr.toNat < s.cfg.fifoDepth ∧
    Store.read s.fifo.mem s.fifo.rptr.toNat = some e ∧
    t = { s with fifo := {
      mem := Store.write s.fifo.mem s.fifo.wptr.toNat f
      wptr := BitVec.ofNat 16 ((s.fifo.wptr.toNat + 1) % s.cfg.fifoDepth)
      rptr := BitVec.ofNat 16 ((s.fifo.rptr.toNat + 1) % s.cfg.fifoDepth)
      count := s.fifo.count } } := by
  unfold fifoPushPop at h
  split at h
  · cases h
  next h1 =>
    split at h
    · cases h
    next h2 =>
      split at h
      · cases h
      · next hr => cases h; exact ⟨h1, by omega, by omega, hr, rfl⟩

/-- When a push faults, and how (R190, R194). -/
theorem fifoPush_error {s : State} {f : Frame} {e : Fault} (h : fifoPush s f = .error e) :
    (e = .fifoPushFull ∧ s.cfg.fifoDepth ≤ s.fifo.count.toNat) ∨
    (e = .indexOutOfRange ∧ s.cfg.fifoDepth ≤ s.fifo.wptr.toNat) := by
  unfold fifoPush at h
  split at h
  · next h1 => exact .inl ⟨(Except.error.inj h).symm, h1⟩
  · split at h
    · next h2 => exact .inr ⟨(Except.error.inj h).symm, h2⟩
    · cases h

end Sys2Proof.Machine
end

