-- ==== Sys2Proof/Laws/ParserSteps.lean ====
section
/-! SUPPORT. What a byte step can do: its cases, and which registers each of the parser's small operations leaves alone. -/

namespace Sys2Proof.Machine

@[simp] theorem sat16_toNat (v : Nat) : (sat16 v).toNat = min v 65535 := by
  simp [sat16]

@[simp] theorem Parser.flagByte_ndata (p : Parser) (t : TokenRec) : (p.flagByte t).ndata = p.ndata := by
  unfold Parser.flagByte; split <;> rfl

@[simp] theorem Parser.flagByte_ovf (p : Parser) (t : TokenRec) : (p.flagByte t).ovf = p.ovf := by
  unfold Parser.flagByte; split <;> rfl

@[simp] theorem Parser.flagOvf_byteErr (cfg : Config) (p : Parser) (t : TokenRec) :
    (p.flagOvf cfg t).byteErr = p.byteErr := by
  unfold Parser.flagOvf; split <;> rfl

/-- The registers a commit leaves, all of them (R139). -/
theorem commitRegs_eq (cfg : Config) (p : Parser) (t : TokenRec) :
    commitRegs cfg p t = { p with
      byteErr := p.byteErr || !t.good
      byteIdx := if !t.good && !p.byteErr then p.ndata else p.byteIdx
      byteOff := if !t.good && !p.byteErr then t.start else p.byteOff
      ovf := p.ovf || decide (cfg.lbufBytes ≤ p.ndata.toNat)
      ovfOff := if cfg.lbufBytes ≤ p.ndata.toNat ∧ p.ovf = false then t.start else p.ovfOff
      ndata := sat16 (p.ndata.toNat + 1) } := by
  unfold commitRegs Parser.flagOvf
  simp only [Parser.flagByte_ndata, Parser.flagByte_ovf]
  unfold Parser.flagByte
  rcases hg : t.good <;> rcases hb : p.byteErr <;> rcases ho : p.ovf <;>
    by_cases hl : cfg.lbufBytes ≤ p.ndata.toNat <;> simp [hb, ho, hl]

/-- What a commit leaves in LBUF (R139). -/
theorem read_commitByte (cfg : Config) (p : Parser) (m : Memory) (t : TokenRec) (k : Nat) :
    Store.read (commitByte cfg p m t) k =
      if k = p.ndata.toNat ∧ t.good = true ∧ p.ndata.toNat < cfg.lbufBytes then some t.decVal else Store.read m k := by
  unfold commitByte
  by_cases h : t.good = true ∧ p.ndata.toNat < cfg.lbufBytes
  · simp [h, Store.read_write]
  · simp [h]

theorem commitByte_wf (cfg : Config) (p : Parser) (m : Memory) (t : TokenRec) (h : Store.wf m = true) :
    Store.wf (commitByte cfg p m t) = true := by
  unfold commitByte; split
  · exact Store.write_wf _ _ h
  · exact h

/-- Every way a byte step answers (R132, R133, R134, R217). -/
theorem byteStep_ok {pfx : List Byte} {body : Parser → Memory → Byte → Half → ByteStep} {eol : Parser → LineOutcome}
    {p : Parser} {m : Memory} {b : Byte} {r : ByteStep} (h : byteStep pfx body eol p m b = .ok r) :
    (p.phase = phPfx ∧ b = termByte ∧ r = { p := p.countByte, lbuf := m, out := some (eol p.countByte) }) ∨
    (p.phase = phPfx ∧ b ≠ termByte ∧ ∃ q, pfxStep p.countByte b pfx = .ok q ∧ r = { p := q, lbuf := m, out := none }) ∨
    (p.phase = phBody ∧ r = body p.countByte m b p.off) ∨
    (p.phase = phSkip ∧ r = { p := p.countByte, lbuf := m, out := if b = termByte then some (eol p.countByte) else none }) := by
  unfold byteStep at h
  split at h
  · next hp =>
    split at h
    · next hb => cases h; exact .inl ⟨hp, hb, rfl⟩
    · next hb =>
      split at h
      · cases h
      · next q hq => cases h; exact .inr (.inl ⟨hp, hb, q, hq, rfl⟩)
  · split at h
    · next hp => cases h; exact .inr (.inr (.inl ⟨hp, rfl⟩))
    · split at h
      · next hp => cases h; exact .inr (.inr (.inr ⟨hp, rfl⟩))
      · cases h

/-- Every way the prefix step answers (R133). -/
theorem pfxStep_ok {p q : Parser} {b : Byte} {pfx : List Byte} (h : pfxStep p b pfx = .ok q) :
    p.pfxI.toNat < pfx.length ∧
    ((pfx[p.pfxI.toNat]? = some b ∧
        q = { p with pfxI := BitVec.ofNat 3 (p.pfxI.toNat + 1)
                     phase := if p.pfxI.toNat + 1 = pfx.length then phBody else p.phase }) ∨
     (pfx[p.pfxI.toNat]? ≠ some b ∧ q = { p with phase := phSkip })) := by
  unfold pfxStep at h
  split at h
  · cases h
  · next want hw =>
    have hlt : p.pfxI.toNat < pfx.length := by
      by_contra hn
      rw [List.getElem?_eq_none (by omega)] at hw
      cases hw
    refine ⟨hlt, ?_⟩
    split at h
    · next hb => cases h; exact .inl ⟨by rw [hw, hb], rfl⟩
    · next hb => cases h; exact .inr ⟨by rw [hw]; exact fun he => hb (Option.some.inj he).symm, rfl⟩

/-- At the terminator a token still open is finished first, and the outcome is `eol_cmd` of the registers that leaves (R135). -/
theorem bodyStepCmd_terminator (cfg : Config) (p : Parser) (m : Memory) (cur : Half) :
    bodyStepCmd cfg p m termByte cur =
      if p.inTok then
        { p := finishCmdRegs cfg p, lbuf := finishCmdBuf cfg p m, out := some (eolCmd cfg (finishCmdRegs cfg p)) }
      else { p := p, lbuf := m, out := some (eolCmd cfg p) } := by
  cases h : p.inTok <;> simp [bodyStepCmd, h]

/-- The same of a reply line (R217). -/
theorem bodyStepReply_terminator (cfg : Config) (p : Parser) (m : Memory) (cur : Half) :
    bodyStepReply cfg p m termByte cur =
      if p.inTok then
        { p := finishReplyRegs cfg p, lbuf := finishReplyBuf cfg p m, out := some (eolReply cfg (finishReplyRegs cfg p)) }
      else { p := p, lbuf := m, out := some (eolReply cfg p) } := by
  cases h : p.inTok <;> simp [bodyStepReply, h]

/-- Whenever a command body step ends the line, its outcome is `eol_cmd` of the registers that the step leaves (R135, R140). -/
theorem bodyStepCmd_out {cfg : Config} {p : Parser} {m : Memory} {b : Byte} {cur : Half} {o : LineOutcome}
    (h : (bodyStepCmd cfg p m b cur).out = some o) : b = termByte ∧ o = eolCmd cfg (bodyStepCmd cfg p m b cur).p := by
  by_cases hb : b = termByte
  · subst hb
    rw [bodyStepCmd_terminator] at h ⊢
    cases hi : p.inTok <;> simp_all
  · simp only [bodyStepCmd, hb, false_or, if_false] at h
    split at h <;> simp at h

/-- The same of a reply body step (R217, R219). -/
theorem bodyStepReply_out {cfg : Config} {p : Parser} {m : Memory} {b : Byte} {cur : Half} {o : LineOutcome}
    (h : (bodyStepReply cfg p m b cur).out = some o) :
    b = termByte ∧ o = eolReply cfg (bodyStepReply cfg p m b cur).p := by
  by_cases hb : b = termByte
  · subst hb
    rw [bodyStepReply_terminator] at h ⊢
    cases hi : p.inTok <;> simp_all
  · simp only [bodyStepReply, hb, false_or, if_false] at h
    split at h <;> simp at h

/-- What CMD_OK says of the registers it is reported on (R140): no byte error, no overflow, an address that is one. -/
theorem eolCmd_ok {cfg : Config} {p : Parser} (h : (eolCmd cfg p).kind = kCmdOk) :
    p.phase = phBody ∧ 2 ≤ p.ntok.toNat ∧ p.q.hexOk = true ∧ ¬ (p.q.hexBig = true ∧ cfg.addrPolicy = .reject) ∧
      p.byteErr = false ∧ p.ovf = false ∧ (eolCmd cfg p).count = BitVec.ofNat 16 (nframes cfg p.ndata.toNat) := by
  unfold eolCmd at h ⊢
  split_ifs at h ⊢ with h1 h2 h3 h4 h5
  · simp [kNotCommand, kCmdOk] at h
  · simp [kMalformedCommand, kCmdOk] at h
  · simp [kInvalidAddress, kCmdOk] at h
  · simp [kInvalidByteValue, kCmdOk] at h
  · simp [kPayloadOverflow, kCmdOk] at h
  · rw [not_or] at h3
    exact ⟨not_not.mp h1, by omega, by simpa using h3.1, h3.2, by simpa using h4, by simpa using h5, rfl⟩

theorem runBytes_cons {f : Parser → Memory → Byte → Except Fault ByteStep} {p : Parser} {m : Memory} {b b' : Byte}
    {bs : List Byte} {r : ByteStep} (h : f p m b = .ok r) :
    runBytes f p m (b :: b' :: bs) = runBytes f r.p r.lbuf (b' :: bs) := by
  simp [runBytes, h]

end Sys2Proof.Machine
end

