-- ==== Sys2Proof/Laws/PerInstr.lean ====
section
/-! SUPPORT. Statements about every instruction as syntax, one lemma per constructor. -/

namespace Sys2Proof.Laws.TakesTime

/-- Every operation takes at least one clock cycle (R338). -/
def Statement (i : Sys2Proof.Instr) : Prop := 1 ≤ Sys2Proof.Machine.instrCycles i

theorem cmdData (body : List Sys2Proof.Byte) : Statement (.cmdData body) := by simp [Statement, Machine.instrCycles, Instr.isLine]
theorem lineOtherA (c : List Sys2Proof.Byte) : Statement (.lineOtherA c) := by simp [Statement, Machine.instrCycles, Instr.isLine]
theorem replyReturn (body : List Sys2Proof.Byte) : Statement (.replyReturn body) := by simp [Statement, Machine.instrCycles, Instr.isLine]
theorem lineOtherB (c : List Sys2Proof.Byte) : Statement (.lineOtherB c) := by simp [Statement, Machine.instrCycles, Instr.isLine]
theorem sPollA : Statement .sPollA := Nat.le_refl 1
theorem sRxA : Statement .sRxA := Nat.le_refl 1
theorem sEnc : Statement .sEnc := Nat.le_refl 1
theorem sPollQ : Statement .sPollQ := Nat.le_refl 1
theorem sTxB : Statement .sTxB := Nat.le_refl 1
theorem sThrottle : Statement .sThrottle := Nat.le_refl 1
theorem sPollB : Statement .sPollB := Nat.le_refl 1
theorem sRxB : Statement .sRxB := Nat.le_refl 1
theorem sTxA : Statement .sTxA := Nat.le_refl 1
theorem sStopClean : Statement .sStopClean := Nat.le_refl 1
theorem sStopError : Statement .sStopError := Nat.le_refl 1
theorem fifoPush (f : Sys2Proof.Frame) : Statement (.fifoPush f) := Nat.le_refl 1
theorem fifoPop : Statement .fifoPop := Nat.le_refl 1
theorem fifoPushPop (f : Sys2Proof.Frame) : Statement (.fifoPushPop f) := Nat.le_refl 1

end Sys2Proof.Laws.TakesTime
end

