-- ==== Sys2Proof/Laws/StepCases.lean ====
section
/-! SUPPORT. What one step can do, said once: every invariant is derived from this. -/

namespace Sys2Proof.Machine

/-- Every way a step answers a next state (R240): reset, a stop entered, or the operation the fetch names. -/
theorem step_next_cases {s t : State} (h : step s = .next t) :
    legalConfig s.cfg = true ∧
    ((s.pins.rst = true ∧ t = (doReset s).after s 1) ∨
     (s.pins.rst = false ∧ s.stopped = false ∧ (s.pins.aErr = true ∨ s.pins.bErr = true) ∧
        t = (enterStop s stStopError s.pins.aErr s.pins.bErr).after s 1) ∨
     (s.pins.rst = false ∧ s.stopped = false ∧ s.pins.aErr = false ∧ s.pins.bErr = false ∧ s.pins.cancel = true ∧
        t = (enterStop s stStopClean s.pins.aErr s.pins.bErr).after s 1) ∨
     (s.pins.rst = false ∧
        (s.stopped = false → s.pins.aErr = false ∧ s.pins.bErr = false ∧ s.pins.cancel = false) ∧
        ∃ i u, decode s.fetch = .ok i ∧ exec i s.clearReport = .next u ∧ t = u.after s (instrCycles i))) := by
  unfold step edge at h
  split at h
  · cases h
  next hl =>
  refine ⟨by simpa using hl, ?_⟩
  split at h
  · next hr => cases h; exact .inl ⟨hr, rfl⟩
  next hr =>
  have hr' : s.pins.rst = false := by simpa using hr
  split at h
  · next he => cases h; simp only [Bool.and_eq_true, Bool.not_eq_true', Bool.or_eq_true] at he
               exact .inr (.inl ⟨hr', he.1, he.2, rfl⟩)
  next he =>
  split at h
  · next hc =>
    cases h
    simp only [Bool.and_eq_true, Bool.not_eq_true', Bool.or_eq_true, not_and, not_or] at he hc
    have := he hc.1
    exact .inr (.inr (.inl ⟨hr', hc.1, by simpa using this.1, by simpa using this.2, hc.2, rfl⟩))
  next hc =>
  simp only [Bool.and_eq_true, Bool.not_eq_true', Bool.or_eq_true, not_and, not_or, Bool.not_eq_true] at he hc
  split at h
  · next i hd =>
    cases hx : exec i s.clearReport with
    | next u =>
      rw [hx] at h
      simp only [finish, Host.Outcome.next.injEq] at h
      exact .inr (.inr (.inr ⟨hr', fun hs => ⟨(he hs).1, (he hs).2, hc hs⟩, i, u, hd, hx, h.symm⟩))
    | fault e => rw [hx] at h; cases h
    | refused r => rw [hx] at h; cases h
  · cases h
  · cases h
  · cases h

/-- The environment after an edge stimulus: the rest of the list. -/
@[simp] theorem restStim_edge {s : State} {p : Pins} {rest : List Stimulus} (h : s.stim = .edge p :: rest) :
    s.restStim = rest := by
  simp [State.restStim, h]

@[simp] theorem pins_edge {s : State} {p : Pins} {rest : List Stimulus} (h : s.stim = .edge p :: rest) :
    s.pins = p := by
  simp [State.pins, h]

@[simp] theorem fetch_edge {s : State} {p : Pins} {rest : List Stimulus} (h : s.stim = .edge p :: rest) :
    s.fetch = .sched s.sch.st := by
  simp [State.fetch, h]

end Sys2Proof.Machine
end

