-- ==== Sys2Proof/Tests/Slice0.lean ====
section
/-! SUPPORT. Tests: ill-formed terms refused, words decoded, one step each (expected values from 95_test_vectors.md, named
by vector), and for every statement with hypotheses a concrete state and operands that meet them. -/

namespace Sys2Proof.Tests

open Sys2Proof Sys2Proof.Machine

/-- The configuration TCFG of 95_test_vectors.md section 0. -/
def tcfg : Config where
  chunkSize := 5
  lbufBytes := 16
  fifoDepth := 8
  throttleCycles := 2
  clkHz := 0
  addrPolicy := .reject

/-- The reset state at TCFG, in a scheduler state, with one edge to come. -/
def at1 (st : BitVec 4) (p : Pins) : State :=
  { State.reset with cfg := tcfg, sch := { st := st, stopCause := 0 }, stim := [.edge p] }

/-- The same with several quiet edges of a kind. -/
def atN (st : BitVec 4) (n : Nat) (p : Pins) : State := { at1 st p with stim := List.replicate n (.edge p) }

def nextOf : Host.Outcome State Fault Refusal → Option State
  | .next s => some s
  | .fault _ => none
  | .refused _ => none

def faultOf : Host.Outcome State Fault Refusal → Option Fault
  | .next _ => none
  | .fault e => some e
  | .refused _ => none

def refusalOf : Host.Outcome State Fault Refusal → Option Refusal
  | .next _ => none
  | .fault _ => none
  | .refused r => some r

def f1 : Frame := { len := 5, data := [0x01, 0x02, 0x03, 0x00, 0xFF] }
def f2 : Frame := { len := 2, data := [0x0A, 0x0B, 0x00, 0x00, 0x00] }

/-- The FIFO of V62 at TCFG's depth: one frame, at slot 0. -/
def oneFrame (st : BitVec 4) (p : Pins) : State :=
  { at1 st p with fifo := { mem := [(0, f1)], wptr := 1, rptr := 0, count := 1 } }

/-- A full FIFO of depth 1 (V64). -/
def fullFifo : State :=
  { at1 stPollA eagerPins with
    cfg := { tcfg with lbufBytes := 3, fifoDepth := 1 }, fifo := { mem := [(0, f1)], wptr := 0, rptr := 0, count := 1 } }

/-- `1 2 3 4 5`, the body of V18. -/
def bodyV18 : List Byte := [0x31, 0x20, 0x32, 0x20, 0x33, 0x20, 0x34, 0x20, 0x35]
/-- `1 300 2 7`, the body of V35. -/
def bodyV35 : List Byte := [0x31, 0x20, 0x33, 0x30, 0x30, 0x20, 0x32, 0x20, 0x37]
/-- `10 20 30`, the body of V40. -/
def bodyV40 : List Byte := [0x31, 0x30, 0x20, 0x32, 0x30, 0x20, 0x33, 0x30]
/-- `1 abc 999`, the body of V47a. -/
def bodyV47a : List Byte := [0x31, 0x20, 0x61, 0x62, 0x63, 0x20, 0x39, 0x39, 0x39]

/-! ## WellFormed: what it refuses -/

theorem test_wf_refuses_term_in_body : (Instr.cmdData [0x31, 0x0A]).wf tcfg = false := by decide
theorem test_wf_refuses_term_in_other_a : (Instr.lineOtherA [0x0A]).wf tcfg = false := by decide
theorem test_wf_refuses_data_as_other_a : (Instr.lineOtherA [0x44, 0x41, 0x54, 0x41, 0x3A]).wf tcfg = false := by decide
theorem test_wf_refuses_term_in_reply : (Instr.replyReturn [0x0A]).wf tcfg = false := by decide
theorem test_wf_refuses_term_in_other_b : (Instr.lineOtherB [0x4F, 0x0A]).wf tcfg = false := by decide
theorem test_wf_refuses_return_as_other_b :
    (Instr.lineOtherB [0x52, 0x45, 0x54, 0x55, 0x52, 0x4E, 0x3A, 0x39]).wf tcfg = false := by decide
theorem test_wf_refuses_short_push : (Instr.fifoPush { f2 with len := 1 }).wf tcfg = false := by decide
theorem test_wf_refuses_long_push : (Instr.fifoPush { f1 with len := 6 }).wf tcfg = false := by decide
theorem test_wf_refuses_unpadded_push : (Instr.fifoPush { len := 2, data := [0x0A, 0x0B] }).wf tcfg = false := by decide
theorem test_wf_refuses_long_pushpop : (Instr.fifoPushPop { f1 with len := 6 }).wf tcfg = false := by decide

/-! ## Decode: words written out from 30_encoding.md (R91, R92, R100, R108) -/

theorem test_decode_cmd_data :
    decode (.lineA [0x44, 0x41, 0x54, 0x41, 0x3A, 0x37, 0x20, 0x66, 0x0A]) = .ok (.cmdData [0x37, 0x20, 0x66]) := by decide
theorem test_decode_other_a : decode (.lineA [0x44, 0x41, 0x54, 0x41, 0x0A]) = .ok (.lineOtherA [0x44, 0x41, 0x54, 0x41]) := by
  decide
theorem test_decode_reply :
    decode (.lineB [0x52, 0x45, 0x54, 0x55, 0x52, 0x4E, 0x3A, 0x39, 0x0A]) = .ok (.replyReturn [0x39]) := by decide
theorem test_decode_other_b : decode (.lineB [0x44, 0x41, 0x54, 0x41, 0x3A, 0x0A]) = .ok (.lineOtherB cmdPfx) := by decide
theorem test_decode_poll_a : decode (.sched 0b0000) = .ok .sPollA := by decide
theorem test_decode_rx_a : decode (.sched 0b0001) = .ok .sRxA := by decide
theorem test_decode_enc : decode (.sched 0b0010) = .ok .sEnc := by decide
theorem test_decode_poll_q : decode (.sched 0b0011) = .ok .sPollQ := by decide
theorem test_decode_tx_b : decode (.sched 0b0100) = .ok .sTxB := by decide
theorem test_decode_throttle : decode (.sched 0b0101) = .ok .sThrottle := by decide
theorem test_decode_poll_b : decode (.sched 0b0110) = .ok .sPollB := by decide
theorem test_decode_rx_b : decode (.sched 0b0111) = .ok .sRxB := by decide
theorem test_decode_tx_a : decode (.sched 0b1000) = .ok .sTxA := by decide
theorem test_decode_stop_clean : decode (.sched 0b1001) = .ok .sStopClean := by decide
theorem test_decode_stop_error : decode (.sched 0b1010) = .ok .sStopError := by decide
theorem test_decode_reserved : decode (.sched 0b1111) = .error .reservedState := by decide
theorem test_decode_push : decode (.fifo 0b10 f1) = .ok (.fifoPush f1) := by decide
theorem test_decode_pop : decode (.fifo 0b01 Frame.idle) = .ok .fifoPop := by decide
theorem test_decode_pushpop : decode (.fifo 0b11 f1) = .ok (.fifoPushPop f1) := by decide
theorem test_decode_idle : decode (.fifo 0b00 f1) = .error .fifoIdle := by decide
/-- The table's words: content byte 0 is the most significant. -/
theorem test_table_cmd_data : decodeTableWord 40 0x444154413A = some (.cmdData []) := by decide
theorem test_table_reply : decodeTableWord 56 0x52455455524E3A = some (.replyReturn []) := by decide
theorem test_table_tx_a : decodeTableWord 8 0x08 = some .sTxA := by decide
theorem test_table_reserved : decodeTableWord 8 0x0B = none := by decide

/-! ## One step each -/

/-- What a one-step test looks at. -/
def seen {α : Type} (o : Host.Outcome State Fault Refusal) (f : State → α) : Option α := (nextOf o).map f

def mkRpt (link : BitVec 1) (kind : BitVec 4) (index offset count : Half) : Report :=
  { valid := true, link := link, kind := kind, index := index, offset := offset, count := count }

/-- V18: payload [1, 2, 3, 4], A = 5, two frames. -/
theorem test_cmd_data_v18 :
    seen (exec (.cmdData bodyV18) (at1 stPollA eagerPins)) (fun t => (t.rpt, t.enc, t.sch.st, t.lbuf)) =
      some (mkRpt 0 1 0 0 2, { len := 4, addr := 5, k := 0 }, stEnc, [(0, 1), (1, 2), (2, 3), (3, 4)]) := by decide
/-- V35: the token 300 is the first bad one. -/
theorem test_cmd_data_v35 :
    seen (exec (.cmdData bodyV35) (at1 stPollA eagerPins)) (fun t => (t.rpt, t.enc.len, t.sch.st)) =
      some (mkRpt 0 7 1 7 0, 0, stPollQ) := by decide
/-- V22 -/
theorem test_other_a_v22 :
    seen (exec (.lineOtherA [0x44, 0x41, 0x54, 0x41]) (at1 stPollA eagerPins)) (fun t => (t.rpt, t.sch.st, t.p.phase)) =
      some (mkRpt 0 3 0 0 0, stPollQ, phPfx) := by decide
/-- V40 -/
theorem test_reply_v40 :
    seen (exec (.replyReturn bodyV40) (at1 stPollB eagerPins)) (fun t => (t.rpt, t.tx.len, t.sch.st, t.lbuf)) =
      some (mkRpt 1 2 0 0 3, 3, stTxA, [(0, 10), (1, 20), (2, 30)]) := by decide
/-- V47a -/
theorem test_reply_v47a :
    seen (exec (.replyReturn bodyV47a) (at1 stPollB eagerPins)) (fun t => (t.rpt, t.tx.len, t.sch.st)) =
      some (mkRpt 1 7 1 9 0, 0, stPollA) := by decide
/-- V45 -/
theorem test_other_b_v45 :
    seen (exec (.lineOtherB [0x4F, 0x4B]) (at1 stPollB eagerPins)) (fun t => (t.rpt, t.sch.st)) =
      some (mkRpt 1 4 0 0 0, stPollA) := by decide

def withCount (n : Half) (s : State) : State := { s with fifo := { s.fifo with count := n } }

/-- V70 -/
theorem test_poll_a_v70 :
    seen (step (withCount 2 (at1 stPollA (offerA 0x44)))) (fun t => (t.sch.st, t.p)) = some (stRxA, Parser.init) := by decide
/-- V71 -/
theorem test_poll_a_v71 : seen (step (withCount 3 (at1 stPollA (offerA 0x44)))) (fun t => t.sch.st) = some stPollQ := by
  decide

/-- V74's state: the registers of V100 after the byte 66. -/
def v74 : State :=
  { at1 stRxA (offerA 0x0A) with
    p := { Parser.init with
      phase := 1, pfxI := 5, off := 9, inTok := true, qValid := true, ntok := 1
      c := { start := 7, decOk := false, decBig := false, decVal := 1, hexOk := true, hexBig := false, hexVal := 0x1F }
      q := { start := 5, decOk := true, decBig := false, decVal := 7, hexOk := true, hexBig := false, hexVal := 7 } } }

theorem test_rx_a_v74 :
    seen (step v74) (fun t => (t.rpt, t.lbuf, t.enc, t.sch.st)) =
      some (mkRpt 0 1 0 0 1, [(0, 7)], { len := 1, addr := 0x1F, k := 0 }, stEnc) := by decide
/-- V75 -/
theorem test_rx_a_v75 :
    seen (step { at1 stRxA (offerA 0x0A) with p := { Parser.init with phase := 2 } }) (fun t => (t.rpt, t.sch.st)) =
      some (mkRpt 0 3 0 0 0, stPollQ) := by decide

/-- The outcome of `cmd_step` on a command line from P_INIT, and that of `parse_cmd`. -/
def bothLevels (cfg : Config) (body : List Byte) : Option (Option LineOutcome × LineOutcome) :=
  match runBytes (cmdStep cfg) Parser.init [] (cmdPfx ++ body ++ [termByte]) with
  | .ok r => some (r.out, (parseCmd cfg (cmdPfx ++ body)).outcome cfg)
  | .error _ => none

/-- `1 ff`, `1 2 zz` (V28), `1 300 ff`: the last token is open at the terminator and is finished first (R135, R142). -/
theorem test_levels_agree_on_open_tokens :
    [[0x31, 0x20, 0x66, 0x66], [0x31, 0x20, 0x32, 0x20, 0x7A, 0x7A], [0x31, 0x20, 0x33, 0x30, 0x30, 0x20, 0x66, 0x66]].map
        (bothLevels tcfg) =
      [some (some { kind := 1, index := 0, offset := 0, count := 1 }, { kind := 1, index := 0, offset := 0, count := 1 }),
       some (some { kind := 6, index := 2, offset := 9, count := 0 }, { kind := 6, index := 2, offset := 9, count := 0 }),
       some (some { kind := 7, index := 1, offset := 7, count := 0 }, { kind := 7, index := 1, offset := 7, count := 0 })] := by
  decide
/-- `1 2 ff` with LBUF_BYTES 1 and CHUNK_SIZE 3: the second data token, committed at the terminator, overflows (R139, R245). -/
theorem test_levels_agree_on_last_overflow :
    bothLevels { tcfg with chunkSize := 3, lbufBytes := 1, fifoDepth := 1 } [0x31, 0x20, 0x32, 0x20, 0x66, 0x66] =
      some (some { kind := 8, index := 1, offset := 7, count := 0 }, { kind := 8, index := 1, offset := 7, count := 0 }) := by
  decide
/-- V102, the row of the byte 35: `dec_big`, 1 after the token 300, is 0 in the next token's record (R136). -/
theorem test_token_flags_v102 :
    (tokenByte { Parser.init with c := { TokenRec.fresh 5 with decBig := true, decVal := 44, hexVal := 0x300 } } 0x35 9).c =
      { start := 9, decOk := true, decBig := false, decVal := 5, hexOk := true, hexBig := false, hexVal := 5 } := by decide
/-- V74 with three data bytes committed before: finishing the open token commits the fourth, so there are two frames (R141). -/
theorem test_report_open_token_two_frames :
    seen (step { v74 with p := { v74.p with off := 14, ntok := 4, ndata := 3 } }) (fun t => (t.rpt, t.enc.len)) =
      some (mkRpt 0 1 0 0 2, 4) := by decide

/-- V53's state, after its first edge. -/
def v53 : State :=
  { oneFrame stEnc eagerPins with
    lbuf := [(0, 1), (1, 2), (2, 3), (3, 4)], enc := { len := 4, addr := 0x0A0B, k := 1 }
    rpt := { valid := true, link := 0, kind := 1, index := 0, offset := 0, count := 2 } }

theorem test_enc_v53 :
    seen (step v53) (fun t => (Store.read t.fifo.mem 1, t.fifo.count, t.sch.st, t.enc.k, t.rpt.valid)) =
      some (some { len := 3, data := [0x04, 0x0A, 0x0B, 0x00, 0x00] }, 2, stPollQ, 1, false) := by decide

/-- V77's state. -/
def v77 : State :=
  { at1 stPollQ eagerPins with fifo := { mem := [(5, f1), (6, f2)], wptr := 7, rptr := 5, count := 2 } }

theorem test_poll_q_v77 :
    seen (step v77) (fun t => (t.tx, t.fifo.count, t.fifo.rptr, t.sch.st)) =
      some ({ buf := some [0x01, 0x02, 0x03, 0x00, 0xFF], len := 5, idx := 0 }, 1, 6, stTxB) := by decide
/-- V76 -/
theorem test_poll_q_v76 : seen (step (at1 stPollQ eagerPins)) (fun t => t.sch.st) = some stPollB := by decide

/-- A frame in the transmit registers, as in V78 to V81. -/
def txFrame (idx : Half) (p : Pins) : State :=
  { at1 stTxB p with tx := { buf := some [0x01, 0x02, 0x03, 0x00, 0xFF], len := 5, idx := idx } }

/-- V78, with the byte that moved -/
theorem test_tx_b_v78 :
    ((txFrame 2 eagerPins).moves.bTx, seen (step (txFrame 2 eagerPins)) (fun t => t.tx.idx)) =
      (some 0x03, some 3) := by decide
/-- V80 -/
theorem test_tx_b_v80 :
    ((txFrame 5 eagerPins).moves.bTx, seen (step (txFrame 5 eagerPins)) (fun t => (t.thr, t.sch.st))) =
      (some 0x0A, some (2, stThrottle)) := by decide
/-- V83 -/
theorem test_throttle_v83 :
    seen (step { at1 stThrottle eagerPins with thr := 1 }) (fun t => (t.thr, t.sch.st)) = some (0, stPollB) := by decide
/-- V84 -/
theorem test_throttle_v84 : faultOf (step (at1 stThrottle eagerPins)) = some .throttleZero := by decide
/-- V85 -/
theorem test_poll_b_v85 :
    ((at1 stPollB (offerB 0x52)).moves.bRx, seen (step (at1 stPollB (offerB 0x52))) (fun t => (t.sch.st, t.p))) =
      (none, some (stRxB, Parser.init)) := by decide
/-- V86 -/
theorem test_poll_b_v86 : seen (step (at1 stPollB eagerPins)) (fun t => t.sch.st) = some stPollA := by decide

/-- V87's state: `RETURN:1 2` consumed. -/
def v87 : State :=
  { at1 stRxB (offerB 0x0A) with
    lbuf := [(0, 1)]
    p := { Parser.init with
      phase := 1, pfxI := 7, off := 10, inTok := true, ntok := 1, ndata := 1
      c := { start := 9, decOk := true, decBig := false, decVal := 2, hexOk := true, hexBig := false, hexVal := 2 } } }

theorem test_rx_b_v87 :
    seen (step v87) (fun t => (t.rpt, t.tx.len, t.sch.st, t.lbuf)) =
      some (mkRpt 1 2 0 0 2, 2, stTxA, [(0, 1), (1, 2)]) := by decide
/-- V88 -/
theorem test_rx_b_v88 :
    seen (step { at1 stRxB (offerB 0x0A) with p := { Parser.init with phase := 2, off := 2 } }) (fun t => (t.rpt, t.sch.st)) =
      some (mkRpt 1 4 0 0 0, stPollA) := by decide

/-- A reply in LBUF, as in V89a and V89b. -/
def txReply (idx : Half) (p : Pins) : State :=
  { at1 stTxA p with lbuf := [(0, 1), (1, 2)], tx := { buf := none, len := 2, idx := idx } }

/-- V89a -/
theorem test_tx_a_v89a :
    ((txReply 0 eagerPins).moves.aTx, seen (step (txReply 0 eagerPins)) (fun t => t.tx.idx)) = (some 0x01, some 1) := by decide
/-- V89b -/
theorem test_tx_a_v89b :
    ((txReply 2 eagerPins).moves.aTx, seen (step (txReply 2 eagerPins)) (fun t => t.sch.st)) =
      (some 0x0A, some stPollA) := by decide

def stopA : Pins := { eagerPins with aErr := true }
def stopAB : Pins := { eagerPins with aErr := true, bErr := true, cancel := true }
def stopC : Pins := { eagerPins with cancel := true }
def resetPins : Pins := { stopAB with rst := true }

/-- V94 -/
theorem test_stop_clean_v94 :
    seen (step (at1 stStopClean stopA)) (fun t => (t.outputs.runState, t.sch.stopCause)) = some (1, 0) := by decide
/-- V95 -/
theorem test_stop_error_v95 :
    seen (step { at1 stStopError { eagerPins with bErr := true } with sch := { st := stStopError, stopCause := 1 } })
      (fun t => t.sch) = some { st := stStopError, stopCause := 1 } := by decide
/-- V92 -/
theorem test_stop_entry_v92 :
    seen (step (at1 stTxB stopAB)) (fun t => t.sch) = some { st := stStopError, stopCause := 3 } := by decide
/-- V98 -/
theorem test_reset_v98 :
    seen (step { v53 with stim := [.edge resetPins] }) (fun t => (t.sch.st, t.lbuf, t.fifo, t.rpt.kind)) =
      some (0, [], { mem := [], wptr := 0, rptr := 0, count := 0 }, 0) := by decide

/-- V61 step 7: a push wraps. -/
theorem test_fifo_push_v61 :
    seen (exec (.fifoPush f1)
      { v77 with cfg := { tcfg with fifoDepth := 4 },
                 fifo := { mem := [(0, f1), (1, f2), (2, f1), (3, f2)], wptr := 3, rptr := 0, count := 3 } })
      (fun t => (t.fifo.wptr, t.fifo.count, Store.read t.fifo.mem 3)) = some (0, 4, some f1) := by decide
/-- V60 -/
theorem test_fifo_pop_v60 : faultOf (exec .fifoPop (at1 stPollA eagerPins)) = some .fifoPopEmpty := by decide
/-- V7 step 4: the head leaves; the entry is not cleared. -/
theorem test_fifo_pop_v7 :
    seen (exec .fifoPop (oneFrame stPollA eagerPins)) (fun t => (t.tx.buf, t.tx.len, t.fifo)) =
      some (some f1.data, 5, { mem := [(0, f1)], wptr := 1, rptr := 1, count := 0 }) := by decide
/-- V62 -/
theorem test_fifo_pushpop_v62 :
    seen (exec (.fifoPushPop f2) (oneFrame stPollA eagerPins)) (fun t => (t.tx.buf, t.fifo)) =
      some (some f1.data, { mem := [(0, f1), (1, f2)], wptr := 2, rptr := 1, count := 1 }) := by decide
/-- V64 -/
theorem test_fifo_pushpop_v64 :
    seen (exec (.fifoPushPop f2) fullFifo) (fun t => (t.tx.buf, t.fifo)) =
      some (some f1.data, { mem := [(0, f2)], wptr := 0, rptr := 0, count := 1 }) := by decide

/-! ## The host's placing of a word -/

theorem test_place_line :
    seen (step (State.reset.withFetchWord 40 0x444154413A)) (fun t => t.rpt.kind) = some kMalformedCommand := by decide
theorem test_place_throttle : seen (step (State.reset.withFetchWord 8 5)) (fun t => t.sch.st) = some stPollB := by decide

/-! ## Witnesses: for each statement with hypotheses, a state and operands that meet them all -/

/-- DecodeOfEncodeIsTheInstruction: a line that is nearly the prefix, the shortest frame and the longest. -/
theorem test_witness_encode :
    (Instr.lineOtherA [0x44, 0x41, 0x54, 0x41]).wf tcfg = true ∧ (Instr.fifoPush f2).wf tcfg = true ∧
      (Instr.fifoPushPop f1).wf tcfg = true ∧ (Instr.cmdData []).wf tcfg = true := by decide
/-- LinesDecodeToTheFirstLine, CommandParserLevelsAgree, ReplyParserLevelsAgree: an empty line, and each prefix itself. -/
theorem test_witness_lines : lineWf [] = true ∧ lineWf cmdPfx = true ∧ lineWf repPfx = true ∧ legalConfig tcfg = true := by decide
/-- CanonicalCommandParses: one data byte, and LBUF_BYTES of them. -/
theorem test_witness_canonical_command :
    ([0xFF] : List Byte) ≠ [] ∧ ([0xFF] : List Byte).length ≤ tcfg.lbufBytes ∧
      (List.replicate 16 0x0A : List Byte) ≠ [] ∧ (List.replicate 16 0x0A : List Byte).length ≤ tcfg.lbufBytes := by decide
/-- SpelledReplyParses: no byte, and LBUF_BYTES of them. -/
theorem test_witness_spelled_reply :
    ([] : List Byte).length ≤ tcfg.lbufBytes ∧ (List.replicate 16 0x0A : List Byte).length ≤ tcfg.lbufBytes := by decide
/-- ResetEdgeLeavesTheResetValues -/
theorem test_witness_reset_edge :
    legalConfig { v53 with stim := [.edge resetPins] }.cfg = true ∧ { v53 with stim := [.edge resetPins] }.pins.rst = true := by
  decide
/-- StopEntryWritesOnlyTheStopRegisters: a failure of one link, of both beside a cancellation, and a cancellation alone. -/
theorem test_witness_stop_entry :
    legalConfig tcfg = true ∧ (at1 stTxB stopA).pins.rst = false ∧ (at1 stTxB stopA).stopped = false ∧
      (at1 stTxB stopA).pins.aErr = true ∧ (at1 stTxB stopA).pins.bErr = false ∧
      (at1 stTxB stopAB).pins.rst = false ∧ (at1 stTxB stopAB).pins.aErr = true ∧ (at1 stTxB stopAB).pins.bErr = true ∧
      (at1 stTxB stopC).pins.rst = false ∧ (at1 stTxB stopC).pins.aErr = false ∧ (at1 stTxB stopC).pins.bErr = false ∧
      (at1 stTxB stopC).pins.cancel = true ∧ (at1 stTxB stopC).stopped = false := by decide
/-- StopStatesAbsorbEveryInputButReset: both stop states, two edges with stop inputs; and no edge. -/
theorem test_witness_stop_states :
    legalConfig tcfg = true ∧ (atN stStopClean 2 stopAB).stopped = true ∧ (atN stStopError 2 stopAB).stopped = true ∧
      (∀ p ∈ List.replicate 2 stopAB, p.rst = false) ∧
      (atN stStopError 2 stopAB).stim = (List.replicate 2 stopAB).map Stimulus.edge ++ [] ∧
      (atN stStopClean 0 stopAB).stim = ([] : List Pins).map Stimulus.edge ++ [] := by decide
/-- StepRunsTheDecodedOperation: an operation that answers, one in a stop state under stop inputs, and one that faults. -/
theorem test_witness_step :
    legalConfig v53.cfg = true ∧ v53.pins.rst = false ∧ (v53.stopped = false → calm v53.pins = true) ∧
      decode v53.fetch = .ok .sEnc ∧ (nextOf (exec .sEnc { v53 with rpt := { v53.rpt with valid := false } })).isSome = true ∧
      ((at1 stStopClean stopA).stopped = false → calm (at1 stStopClean stopA).pins = true) ∧
      decode (at1 stStopClean stopA).fetch = .ok .sStopClean ∧ calm (at1 stThrottle eagerPins).pins = true ∧
      decode (at1 stThrottle eagerPins).fetch = .ok .sThrottle ∧
      faultOf (exec .sThrottle (at1 stThrottle eagerPins)) = some .throttleZero := by decide
/-- The empty command line offered where the block polls LINK-A, and an empty reply where it polls LINK-B. -/
def lineAtPollA : State := { at1 stPollA eagerPins with stim := [.bytesA (cmdPfx ++ [termByte])] }
def lineAtPollB : State := { at1 stPollB eagerPins with stim := [.bytesB (repPfx ++ [termByte])] }

/-- StepRunsTheDecodedOperation where a whole line is fetched (log 3), on either link. -/
theorem test_witness_step_line :
    legalConfig tcfg = true ∧ lineAtPollA.pins.rst = false ∧ calm lineAtPollA.pins = true ∧
      decode lineAtPollA.fetch = .ok (.cmdData []) ∧ (nextOf (exec (.cmdData []) lineAtPollA.clearReport)).isSome = true ∧
      lineAtPollB.pins.rst = false ∧ calm lineAtPollB.pins = true ∧ decode lineAtPollB.fetch = .ok (.replyReturn []) ∧
      (nextOf (exec (.replyReturn []) lineAtPollB.clearReport)).isSome = true := by decide
/-- ReservedSchedulerCodeFaults: both ends of the range. -/
theorem test_witness_reserved :
    legalConfig tcfg = true ∧ calm (at1 0xB eagerPins).pins = true ∧ 11 ≤ (at1 0xB eagerPins).sch.st.toNat ∧
      11 ≤ (at1 0xF eagerPins).sch.st.toNat := by decide
/-- IllegalConfigurationIsRefused: each way a configuration is illegal, at its boundary. -/
theorem test_witness_illegal :
    { tcfg with chunkSize := 2 }.chunkSize < 3 ∧ { tcfg with lbufBytes := 0 }.lbufBytes < 1 ∧
      65535 < { tcfg with lbufBytes := 65536 }.lbufBytes ∧
      { tcfg with fifoDepth := 5 }.fifoDepth < max 1 ((tcfg.lbufBytes + (tcfg.chunkSize - 2) - 1) / (tcfg.chunkSize - 2)) ∧
      65535 < { tcfg with fifoDepth := 65536 }.fifoDepth := by decide
/-- OutputsFollowTheRegisters: a frame byte, a frame's terminator, a reply byte, a reply's terminator. -/
theorem test_witness_outputs :
    ((txFrame 4 eagerPins).sch.st = 0x4 ∧ (txFrame 4 eagerPins).tx.idx.toNat < (txFrame 4 eagerPins).tx.len.toNat ∧
      (txFrame 4 eagerPins).tx.buf = some [0x01, 0x02, 0x03, 0x00, 0xFF]) ∧
    (txFrame 5 eagerPins).tx.len.toNat ≤ (txFrame 5 eagerPins).tx.idx.toNat ∧
    ((txReply 1 eagerPins).sch.st = 0x8 ∧ (txReply 1 eagerPins).tx.idx.toNat < (txReply 1 eagerPins).tx.len.toNat) ∧
    (txReply 2 eagerPins).tx.len.toNat ≤ (txReply 2 eagerPins).tx.idx.toNat := by decide
/-- PollAStartsALineOnlyWithRoom, PollBStartsALineWhenAByteIsOffered -/
theorem test_witness_polls : (at1 stPollA (offerA 0x44)).sch.st = 0x0 ∧ (at1 stPollB (offerB 0x52)).sch.st = 0x6 := by decide
/-- RxATakesOneByte: a wait; the last byte of the prefix; a terminator with CMD_OK (V74); a terminator with another outcome. -/
theorem test_witness_rx_a :
    (v74.p.phase.toNat ≤ 2 ∧ (v74.p.phase = 0 → v74.p.pfxI.toNat < 5) ∧ v74.pins.aRxValid = true ∧ v74.pins.aRxData = 0x0A ∧
      seen (exec .sRxA v74) (fun t => t.rpt.kind) = some 1) ∧
    (at1 stRxA eagerPins).pins.aRxValid = false ∧ (at1 stRxA (offerA 0x0A)).p.pfxI.toNat < 5 ∧
    seen (exec .sRxA (at1 stRxA (offerA 0x0A))) (fun t => t.rpt.kind) = some 3 ∧
    { at1 stRxA (offerA 0x3A) with p := { Parser.init with pfxI := 4 } }.p.pfxI.toNat < 5 ∧
    (at1 stRxA (offerA 0x3A)).pins.aRxValid = true ∧ (at1 stRxA (offerA 0x3A)).pins.aRxData ≠ 0x0A := by decide
/-- RxBTakesOneByte: the same, with V87 for the accepted reply. -/
theorem test_witness_rx_b :
    (v87.p.phase.toNat ≤ 2 ∧ (v87.p.phase = 0 → v87.p.pfxI.toNat < 7) ∧ v87.pins.bRxValid = true ∧ v87.pins.bRxData = 0x0A ∧
      seen (exec .sRxB v87) (fun t => t.rpt.kind) = some 2) ∧
    (at1 stRxB eagerPins).pins.bRxValid = false ∧ (at1 stRxB (offerB 0x0A)).p.pfxI.toNat < 7 ∧
    seen (exec .sRxB (at1 stRxB (offerB 0x0A))) (fun t => t.rpt.kind) = some 4 ∧
    { at1 stRxB (offerB 0x3A) with p := { Parser.init with pfxI := 6 } }.p.pfxI.toNat < 7 ∧
    (at1 stRxB (offerB 0x3A)).pins.bRxValid = true ∧ (at1 stRxB (offerB 0x3A)).pins.bRxData ≠ 0x0A := by decide

/-- A storage that lists `bs` from index 0 holds them. -/
theorem holds_of_decide {m : Memory} {bs : List Byte}
    (h : ∀ k, k < bs.length → Store.read m k = bs[k]?) : holds m bs := h

theorem v53_fifo_ok : FifoOk v53 := ⟨by decide, by decide, by decide, by decide⟩

/-- EncPushesOneFrame: the last frame of V53, and the first of it. -/
theorem test_witness_enc :
    legalConfig v53.cfg = true ∧ ([1, 2, 3, 4] : List Byte).length = v53.enc.len.toNat ∧ holds v53.lbuf [1, 2, 3, 4] ∧
      v53.enc.k.toNat < nframes v53.cfg v53.enc.len.toNat ∧ v53.enc.k.toNat + 1 = nframes v53.cfg v53.enc.len.toNat ∧
      0 + 1 ≠ nframes v53.cfg v53.enc.len.toNat ∧ v53.fifo.count.toNat < v53.cfg.fifoDepth ∧
      v53.fifo.wptr.toNat < v53.cfg.fifoDepth :=
  ⟨by decide, by decide, holds_of_decide (by decide), by decide, by decide, by decide, by decide, by decide⟩

theorem v77_fifo_ok : FifoOk v77 := ⟨by decide, by decide, by decide, by decide⟩

/-- PollQPopsOneFrame: V77, and V76's empty FIFO. -/
theorem test_witness_poll_q :
    FifoOk v77 ∧ v77.fifo.count ≠ 0 ∧ Store.read v77.fifo.mem v77.fifo.rptr.toNat = some f1 ∧
      (at1 stPollQ eagerPins).fifo.count = 0 := ⟨v77_fifo_ok, by decide, by decide, by decide⟩
/-- TxBSendsOneByte: the last byte of a frame, and its terminator. -/
theorem test_witness_tx_b :
    (∃ d, (txFrame 4 eagerPins).tx.buf = some d ∧ (txFrame 4 eagerPins).tx.idx.toNat < d.length) ∧
      ¬ (txFrame 5 eagerPins).tx.idx.toNat < (txFrame 5 eagerPins).tx.len.toNat :=
  ⟨⟨[0x01, 0x02, 0x03, 0x00, 0xFF], by decide⟩, by decide⟩
/-- ThrottleCountsDown: a count of 0, of 1, of 2. -/
theorem test_witness_throttle :
    (at1 stThrottle eagerPins).thr = 0 ∧ { at1 stThrottle eagerPins with thr := 1 }.thr = 1 ∧
      2 ≤ { at1 stThrottle eagerPins with thr := 2 }.thr.toNat := by decide
/-- TxASendsOneByte: the last byte of a reply, and its terminator. -/
theorem test_witness_tx_a :
    (Store.read (txReply 1 eagerPins).lbuf (txReply 1 eagerPins).tx.idx.toNat).isSome = true ∧
      ¬ (txReply 2 eagerPins).tx.idx.toNat < (txReply 2 eagerPins).tx.len.toNat := by decide
/-- StateGraphIsTheTables, ConfigurationNeverChanges, StoragesStayCanonical: V53's step. -/
theorem test_witness_state_graph :
    ∃ t, step v53 = .next t ∧ v53.pins.rst = false ∧ t.cycle = v53.cycle + 1 ∧ Store.wf v53.lbuf = true ∧
      Store.wf v53.fifo.mem = true := ⟨_, rfl, by decide, by decide, by decide, by decide⟩
/-- WaitsChangeNothingButTheReportPulse: the four waits; the third offers a frame byte, the fourth a terminator. -/
theorem test_witness_waits :
    legalConfig tcfg = true ∧ calm Pins.quiet = true ∧
      ((at1 0x1 Pins.quiet).sch.st = 0x1 ∧ (at1 0x1 Pins.quiet).pins.aRxValid = false) ∧
      ((at1 0x7 Pins.quiet).sch.st = 0x7 ∧ (at1 0x7 Pins.quiet).pins.bRxValid = false) ∧
      ((txFrame 2 Pins.quiet).sch.st = 0x4 ∧ (txFrame 2 Pins.quiet).pins.bTxReady = false ∧
        (txFrame 2 Pins.quiet).outputs.bTxData ≠ none) ∧
      ((txReply 2 Pins.quiet).sch.st = 0x8 ∧ (txReply 2 Pins.quiet).pins.aTxReady = false ∧
        (txReply 2 Pins.quiet).outputs.aTxData ≠ none) := by decide
/-- TokenRecordHoldsBothReadings: 255 and 256, 65535 and 65536. -/
theorem test_witness_token :
    (([0x32, 0x35, 0x35] : List Byte).all isDigit = true ∧ decValue [0x32, 0x35, 0x35] = 255) ∧
      (([0x32, 0x35, 0x36] : List Byte).all isDigit = true ∧ decValue [0x32, 0x35, 0x36] = 256) ∧
      (([0x66, 0x46, 0x66, 0x66] : List Byte).all isHex = true ∧ hexValue [0x66, 0x46, 0x66, 0x66] = 65535) ∧
      (([0x31, 0x30, 0x30, 0x30, 0x30] : List Byte).all isHex = true ∧ hexValue [0x31, 0x30, 0x30, 0x30, 0x30] = 65536) := by
  decide

/-- A record of the token `7`, and of `x`. -/
def good7 : TokenRec := (TokenRec.fresh 5).accumulate 0x37
def badX : TokenRec := (TokenRec.fresh 5).accumulate 0x78

/-- CommitStoresOrFlags: a good token and a bad one; the last index of LBUF and the first past it; the sticky flags set. -/
theorem test_witness_commit :
    (good7.decOk = true ∧ good7.decBig = false) ∧ ¬ (badX.decOk = true ∧ badX.decBig = false) ∧
      { Parser.init with ndata := 15 }.ndata.toNat < tcfg.lbufBytes ∧
      tcfg.lbufBytes ≤ { Parser.init with ndata := 16 }.ndata.toNat ∧ Parser.init.byteErr = false ∧ Parser.init.ovf = false ∧
      { Parser.init with byteErr := true }.byteErr = true ∧ { Parser.init with ovf := true }.ovf = true := by decide
/-- AcceptedCommandIsInTheRegisters, CmdDataReportsAndLoadsTheEncoder: V18 accepted, V35 rejected. -/
theorem test_witness_command :
    legalConfig tcfg = true ∧ lineWf (cmdPfx ++ bodyV18) = true ∧ lineWf bodyV18 = true ∧
      parseCmd tcfg (cmdPfx ++ bodyV18) = .ok [1, 2, 3, 4] 5 ∧ lineWf bodyV35 = true ∧
      ((parseCmd tcfg (cmdPfx ++ bodyV35)).outcome tcfg).kind ≠ 1 := by decide
/-- ReplyParserLevelsAgree, ReplyReturnReportsAndLoadsTransmit: V40 accepted, V47a rejected. -/
theorem test_witness_reply :
    legalConfig tcfg = true ∧ lineWf (repPfx ++ bodyV40) = true ∧ lineWf bodyV40 = true ∧
      parseReply tcfg (repPfx ++ bodyV40) = .ok [10, 20, 30] ∧ lineWf bodyV47a = true ∧
      (parseReply tcfg (repPfx ++ bodyV47a)).outcome.kind ≠ 2 := by decide
/-- OtherLineAOnlyReports, OtherLineBOnlyReports: an empty line, and all of the prefix but one byte. -/
theorem test_witness_other :
    lineWf [] = true ∧ ([] : List Byte).take 5 ≠ cmdPfx ∧ ([] : List Byte).take 7 ≠ repPfx ∧
      lineWf (cmdPfx.take 4) = true ∧ (cmdPfx.take 4).take 5 ≠ cmdPfx ∧
      lineWf (repPfx.take 6) = true ∧ (repPfx.take 6).take 7 ≠ repPfx := by decide
/-- LineAStepIsItsClockEdges, LineBStepIsItsClockEdges: V18 with two frames held, the most that still admits a line. -/
theorem test_witness_line_step :
    legalConfig tcfg = true ∧ lineWf (cmdPfx ++ bodyV18) = true ∧ (withCount 2 (at1 stPollA eagerPins)).sch.st = stPollA ∧
      fifoAdmits (withCount 2 (at1 stPollA eagerPins)) = true ∧ lineWf (repPfx ++ bodyV40) = true ∧
      (at1 stPollB eagerPins).sch.st = stPollB := by decide

/-- Bytes offered on LINK-A in mid-line; bytes with two lines offered where one is taken; the same on LINK-B. -/
def offeredA (st : BitVec 4) : State := { at1 st eagerPins with stim := [.bytesA [0x78, 0x0A, 0x79, 0x0A]] }
def offeredB (st : BitVec 4) : State := { at1 st eagerPins with stim := [.bytesB [0x78, 0x0A, 0x79, 0x0A]] }

/-- OfferedBytesAreConsumedInOrder -/
theorem test_witness_offered :
    (∃ t, step (offeredA stRxA) = .next t) ∧ (∃ t, step (offeredA stPollA) = .next t) ∧
      (∃ t, step (offeredB stRxB) = .next t) ∧ (∃ t, step (offeredB stPollB) = .next t) ∧
      (offeredA stPollA).consumedA = [0x78, 0x0A] ∧ (offeredB stRxB).consumedB = [0x78] :=
  ⟨⟨_, rfl⟩, ⟨_, rfl⟩, ⟨_, rfl⟩, ⟨_, rfl⟩, by decide, by decide⟩
/-- EncodeSplitsThePayload, FrameLengthsAreBounded, DecodingTheFramesGivesPayloadAndAddress, FrameCountIsTheCeiling: V4, V5,
V53. -/
theorem test_witness_encode_frames :
    legalConfig tcfg = true ∧ ([1, 2, 3] : List Byte).length = tcfg.chunkSize - 2 ∧
      (encodeFrames tcfg [1, 2, 3, 4] 0x0A0B)[0]? = some [1, 2, 3, 0x0A, 0x0B] ∧ 0 + 1 < nframes tcfg 4 ∧
      (encodeFrames tcfg [1, 2, 3, 4] 0x0A0B)[1]? = some [4, 0x0A, 0x0B] ∧ 16 ≤ tcfg.lbufBytes := by decide

/-- S_ENC at its first edge, with two edges to come, behind one frame. -/
def encStart : State :=
  { v53 with enc := { len := 4, addr := 0x0A0B, k := 0 }, stim := [.edge eagerPins, .edge eagerPins] }

theorem enc_start_fifo_ok : FifoOk encStart := ⟨by decide, by decide, by decide, by decide⟩

/-- EncStateEnqueuesAllFramesInOrder -/
theorem test_witness_enc_state :
    legalConfig encStart.cfg = true ∧ encStart.sch.st = stEnc ∧ encStart.enc.k = 0 ∧
      ([1, 2, 3, 4] : List Byte).length = encStart.enc.len.toNat ∧ holds encStart.lbuf [1, 2, 3, 4] ∧ FifoOk encStart ∧
      encStart.fifo.count.toNat + nframes encStart.cfg 4 ≤ encStart.cfg.fifoDepth ∧
      [eagerPins, eagerPins].length = nframes encStart.cfg 4 ∧ (∀ p ∈ [eagerPins, eagerPins], calm p = true) ∧
      encStart.stim = [eagerPins, eagerPins].map Stimulus.edge ++ [] :=
  ⟨by decide, by decide, by decide, by decide, holds_of_decide (by decide), enc_start_fifo_ok, by decide, by decide, by decide,
    by decide⟩

/-- V18 offered, with the two S_ENC edges after it. -/
def commandStart : State :=
  { at1 stPollA eagerPins with
    stim := [.bytesA (cmdPfx ++ bodyV18 ++ [termByte]), .edge eagerPins, .edge eagerPins] }

theorem command_start_fifo_ok : FifoOk commandStart := ⟨by decide, by decide, by decide, by decide⟩

/-- AcceptedCommandEnqueuesItsFrames -/
theorem test_witness_accepted_command :
    legalConfig commandStart.cfg = true ∧ lineWf bodyV18 = true ∧
      parseCmd commandStart.cfg (cmdPfx ++ bodyV18) = .ok [1, 2, 3, 4] 5 ∧ commandStart.sch.st = stPollA ∧
      fifoAdmits commandStart = true ∧ FifoOk commandStart ∧ [eagerPins, eagerPins].length = nframes commandStart.cfg 4 ∧
      (∀ p ∈ [eagerPins, eagerPins], calm p = true) ∧
      commandStart.stim = .bytesA (cmdPfx ++ bodyV18 ++ [termByte]) :: ([eagerPins, eagerPins].map Stimulus.edge ++ []) :=
  ⟨by decide, by decide, by decide, by decide, by decide, command_start_fifo_ok, by decide, by decide, by decide⟩

theorem full_fifo_ok : FifoOk fullFifo := ⟨by decide, by decide, by decide, by decide⟩

/-- PushAppendsAFrame, PopTakesTheHeadFrame, PushPopReplacesTheHead: empty, in between, full. -/
theorem test_witness_fifo :
    (FifoOk fullFifo ∧ fullFifo.fifo.count.toNat = fullFifo.cfg.fifoDepth ∧ fifoFrames fullFifo = some f1 :: []) ∧
      (FifoOk v77 ∧ v77.fifo.count.toNat ≠ v77.cfg.fifoDepth ∧ fifoFrames v77 = some f1 :: [some f2]) ∧
      (FifoOk commandStart ∧ commandStart.fifo.count = 0) :=
  ⟨⟨full_fifo_ok, by decide, by decide⟩, ⟨v77_fifo_ok, by decide, by decide⟩, ⟨command_start_fifo_ok, by decide⟩⟩
/-- FramesLeaveInTheOrderTheyEntered: two pushes, then a pop. -/
theorem test_witness_fifo_order :
    FifoOk commandStart ∧ commandStart.fifo.count = 0 ∧
      ∃ t, fifoTrace [some f1, some f2, none] commandStart = some ([f1], t) :=
  ⟨command_start_fifo_ok, by decide, _, rfl⟩

/-- A frame of two bytes about to be sent, with a throttle count or none. -/
def frameStart (thr : Count32) : State :=
  { at1 stTxB eagerPins with
    cfg := { tcfg with throttleCycles := thr }, tx := { buf := some f2.data, len := 2, idx := 0 }
    stim := [.edge eagerPins, .edge eagerPins, .edge eagerPins] }

/-- FrameIsSentWithItsTerminator: with a throttle and without. -/
theorem test_witness_frame_sent :
    legalConfig (frameStart 2).cfg = true ∧ legalConfig (frameStart 0).cfg = true ∧ (frameStart 2).sch.st = stTxB ∧
      (frameStart 2).tx.idx = 0 ∧ (frameStart 2).tx.buf = some f2.data ∧ (frameStart 2).tx.len.toNat ≤ f2.data.length ∧
      [eagerPins, eagerPins, eagerPins].length = (frameStart 2).tx.len.toNat + 1 ∧
      (∀ p ∈ [eagerPins, eagerPins, eagerPins], calm p = true ∧ p.bTxReady = true) ∧
      (frameStart 2).stim = [eagerPins, eagerPins, eagerPins].map Stimulus.edge ++ [] ∧
      (frameStart 0).cfg.throttleCycles = 0 ∧ (frameStart 2).cfg.throttleCycles ≠ 0 := by decide
/-- A reply of two bytes about to be sent. -/
def replySend : State :=
  { txReply 0 eagerPins with stim := [.edge eagerPins, .edge eagerPins, .edge eagerPins] }

/-- ReplyIsSentWithItsTerminator -/
theorem test_witness_reply_sent :
    legalConfig replySend.cfg = true ∧ replySend.sch.st = stTxA ∧ replySend.tx.idx = 0 ∧
      replySend.tx.len.toNat = ([1, 2] : List Byte).length ∧ holds replySend.lbuf [1, 2] ∧
      [eagerPins, eagerPins, eagerPins].length = ([1, 2] : List Byte).length + 1 ∧
      (∀ p ∈ [eagerPins, eagerPins, eagerPins], calm p = true ∧ p.aTxReady = true) ∧
      replySend.stim = [eagerPins, eagerPins, eagerPins].map Stimulus.edge ++ [] :=
  ⟨by decide, by decide, by decide, by decide, holds_of_decide (by decide), by decide, by decide, by decide⟩

/-- `RETURN:` offered, an empty reply, with the one S_TX_A edge after it. -/
def replyStart : State :=
  { at1 stPollB eagerPins with stim := [.bytesB (repPfx ++ [] ++ [termByte]), .edge eagerPins] }

/-- AcceptedReplyIsSentOnLinkA: V42. -/
theorem test_witness_accepted_reply :
    legalConfig replyStart.cfg = true ∧ lineWf [] = true ∧ parseReply replyStart.cfg (repPfx ++ []) = .ok [] ∧
      replyStart.sch.st = stPollB ∧ [eagerPins].length = ([] : List Byte).length + 1 ∧
      (∀ p ∈ [eagerPins], calm p = true ∧ p.aTxReady = true) ∧
      replyStart.stim = .bytesB (repPfx ++ [] ++ [termByte]) :: ([eagerPins].map Stimulus.edge ++ []) := by decide
/-- ThrottleLastsItsCount: V82 and the edge after it. -/
theorem test_witness_throttle_lasts :
    legalConfig tcfg = true ∧ (atN stThrottle 2 eagerPins).sch.st = stThrottle ∧ 1 ≤ [eagerPins, eagerPins].length ∧
      { atN stThrottle 2 eagerPins with thr := 2 }.thr.toNat = [eagerPins, eagerPins].length ∧
      (∀ p ∈ [eagerPins, eagerPins], calm p = true) ∧
      { atN stThrottle 2 eagerPins with thr := 2 }.stim = [eagerPins, eagerPins].map Stimulus.edge ++ [] := by decide

/-- V80 with five more edges. -/
def spaced : State := { txFrame 5 eagerPins with stim := List.replicate 6 (.edge eagerPins) }

/-- FramesAreSpacedByTheThrottle, at its last cycle. -/
theorem test_witness_spacing :
    spaced.stim = (List.replicate 6 eagerPins).map Stimulus.edge ++ [] ∧ spaced.sch.st = stTxB ∧ spaced.tx.idx = spaced.tx.len ∧
      calm spaced.pins = true ∧ spaced.pins.bTxReady = true ∧ (∀ p ∈ List.replicate 6 eagerPins, p.rst = false) ∧
      1 ≤ 5 ∧ 5 ≤ spaced.cfg.throttleCycles.toNat + 3 ∧ 5 ≤ (List.replicate 6 eagerPins).length ∧
      ∃ t, core.run 5 spaced = .next t :=
  ⟨by decide, by decide, by decide, by decide, by decide, by decide, by decide, by decide, by decide, _, rfl⟩

/-- A state that meets the invariant: V53 with its report still pending. -/
theorem test_v53_meets_the_invariant : State.Inv v53 where
  legal := by decide
  code := by decide
  cause := by decide
  phase := by decide
  pfxA := by decide
  pfxB := by decide
  fifo := v53_fifo_ok
  frames := by
    intro e h
    rw [show fifoFrames v53 = [some f1] from by decide, List.mem_singleton] at h
    exact ⟨f1, h, by decide⟩
  lbufWf := by decide
  memWf := by decide
  fits := by decide
  stored := fun h => absurd h (by decide)
  admitted := by decide
  encLen := by decide
  encRoom := by decide
  encBytes := fun _ => by decide
  txB := fun h => absurd h (by decide)
  txA := fun h => absurd h (by decide)
  throttle := by decide
  kind := by decide
  pulse := by decide

/-- EveryStepKeepsTheInvariant, InvariantStatesAlwaysStep, ReportIsAOneCyclePulse. -/
theorem test_witness_invariant :
    State.Inv v53 ∧ ∃ t, step v53 = .next t ∧ t.cycle = v53.cycle + 1 ∧ v53.rpt.valid = true :=
  ⟨test_v53_meets_the_invariant, _, rfl, by decide, by decide⟩

/-- Registers no run reaches: the parser's reserved phase, and a prefix index past the prefix. -/
def badPhaseA : State := { v74 with p := { v74.p with phase := 3 } }
def badPhaseB : State := { v87 with p := { v87.p with phase := 3 } }
def badPfx : State := { at1 stRxA (offerA 0x44) with p := { Parser.init with pfxI := 5 } }
/-- S_ENC before a full FIFO, with an empty LBUF, and past its last frame. -/
def encFull : State := withCount 8 v53
def encEmpty : State := { v53 with lbuf := [] }
def encPast : State := { v53 with enc := { v53.enc with k := 2 } }
/-- A count of 1 with no entry; a frame and a reply with no bytes. -/
def popNone : State := withCount 1 (at1 stPollQ eagerPins)
def txNone (st : BitVec 4) : State := { at1 st eagerPins with tx := { buf := none, len := 2, idx := 1 } }
/-- TX.len just above CHUNK_SIZE, at the first byte TX.buf does not hold. -/
def txPast : State := { at1 stTxB eagerPins with tx := { buf := some f1.data, len := 6, idx := 5 } }
/-- A prefix index at the reply prefix's end, and FIFO pointers at FIFO_DEPTH. -/
def badPfxB : State := { at1 stRxB (offerB 0x44) with p := { Parser.init with pfxI := 7 } }
def badPtrs : State := { v53 with fifo := { mem := [(0, f1)], wptr := 8, rptr := 8, count := 1 } }

/-- UnreachableRegistersFaultByName: each clause's state. -/
theorem test_witness_faults :
    (badPhaseA.p.phase = 3 ∧ badPhaseA.pins.aRxValid = true) ∧ (badPhaseB.p.phase = 3 ∧ badPhaseB.pins.bRxValid = true) ∧
    (legalConfig encFull.cfg = true ∧ ([1, 2, 3, 4] : List Byte).length = encFull.enc.len.toNat ∧
      holds encFull.lbuf [1, 2, 3, 4] ∧ encFull.enc.k.toNat < nframes encFull.cfg encFull.enc.len.toNat ∧
      encFull.cfg.fifoDepth ≤ encFull.fifo.count.toNat) ∧
    (legalConfig encEmpty.cfg = true ∧ encEmpty.enc.k.toNat < nframes encEmpty.cfg encEmpty.enc.len.toNat ∧
      encEmpty.enc.k.toNat * (encEmpty.cfg.chunkSize - 2) ≤ 3 ∧ 3 < encEmpty.enc.len.toNat ∧
      3 < (encEmpty.enc.k.toNat + 1) * (encEmpty.cfg.chunkSize - 2) ∧ Store.read encEmpty.lbuf 3 = none) ∧
    (popNone.fifo.count ≠ 0 ∧ popNone.fifo.rptr.toNat < popNone.cfg.fifoDepth ∧
      popNone.fifo.wptr.toNat < popNone.cfg.fifoDepth ∧ Store.read popNone.fifo.mem popNone.fifo.rptr.toNat = none) ∧
    (txPast.tx.idx.toNat < txPast.tx.len.toNat ∧ txPast.tx.buf = some f1.data ∧ f1.data.length ≤ txPast.tx.idx.toNat) ∧
    ((txNone stTxB).tx.idx.toNat < (txNone stTxB).tx.len.toNat ∧ (txNone stTxB).tx.buf = none) ∧
    Store.read (txNone stTxA).lbuf (txNone stTxA).tx.idx.toNat = none ∧
    (badPfx.p.phase = 0 ∧ 5 ≤ badPfx.p.pfxI.toNat ∧ badPfx.pins.aRxValid = true ∧ badPfx.pins.aRxData ≠ 0x0A) ∧
    (badPfxB.p.phase = 0 ∧ badPfxB.p.pfxI = 7 ∧ badPfxB.pins.bRxValid = true ∧ badPfxB.pins.bRxData ≠ 0x0A) ∧
    (badPtrs.fifo.count ≠ 0 ∧ badPtrs.cfg.fifoDepth ≤ badPtrs.fifo.rptr.toNat ∧
      badPtrs.fifo.count.toNat < badPtrs.cfg.fifoDepth ∧ badPtrs.cfg.fifoDepth ≤ badPtrs.fifo.wptr.toNat ∧
      legalConfig badPtrs.cfg = true ∧ ([1, 2, 3, 4] : List Byte).length = badPtrs.enc.len.toNat ∧
      badPtrs.enc.k.toNat < nframes badPtrs.cfg badPtrs.enc.len.toNat) ∧
    holds badPtrs.lbuf [1, 2, 3, 4] ∧ nframes encPast.cfg encPast.enc.len.toNat ≤ encPast.enc.k.toNat :=
  ⟨by decide, by decide, ⟨by decide, by decide, holds_of_decide (by decide), by decide, by decide⟩, by decide, by decide,
    by decide, by decide, by decide, by decide, by decide, by decide, holds_of_decide (by decide), by decide⟩

end Sys2Proof.Tests
end

