-- ==== Sys2Proof/Proofs/Scope.lean ====
section
/-! PROOFS. 00_scope.md: the legal configurations (R8) and what an edge answers outside them. -/

namespace Sys2Proof.Machine

/-- R8's bounds, with N_MAX (R7) under its name; the bound on CHUNK_SIZE from above is log 5's. -/
theorem legalConfig_iff (c : Config) :
    legalConfig c = true ↔ 3 ≤ c.chunkSize ∧ c.chunkSize ≤ 65535 ∧ 1 ≤ c.lbufBytes ∧ c.lbufBytes ≤ 65535 ∧
      nMax c ≤ c.fifoDepth ∧ c.fifoDepth ≤ 65535 :=
  decide_eq_true_iff

/-- Legality is looked at before any input and before `decode` (D16), so nothing else of the state matters. -/
theorem step_of_illegal {s : State} (h : legalConfig s.cfg = false) : step s = .refused .illegalConfig :=
  if_pos h

/-- Settles O14: each way R8 names denies one bound of `legalConfig_iff`. -/
theorem illegalConfigurationIsRefused : Obligations.IllegalConfigurationIsRefused := by
  intro s outside
  apply step_of_illegal
  rw [Bool.eq_false_iff]
  intro legal
  obtain ⟨hchunk, -, hlbuf, hlbufMax, hdepth, hdepthMax⟩ := (legalConfig_iff s.cfg).mp legal
  rcases outside with chunk | lbuf | lbufMax | depth | depthMax
  · exact chunk.not_ge hchunk
  · exact lbuf.not_ge hlbuf
  · exact lbufMax.not_ge hlbufMax
  · exact depth.not_ge hdepth
  · exact depthMax.not_ge hdepthMax

end Sys2Proof.Machine
end

section
/-! PROOFS. 10_state.md: the output ports as functions of the registers (R23 to R28). -/

namespace Sys2Proof.Machine

/-! The byte a transmit state offers. -/

/-- R24 before the end of a frame whose bytes TX.buf holds. -/
theorem State.frameByte_of_lt {s : State} {d : List Byte} (before : s.tx.idx.toNat < s.tx.len.toNat)
    (held : s.tx.buf = some d) : s.frameByte = d[s.tx.idx.toNat]? := by
  rw [State.frameByte, if_pos before, held, Option.bind_some]

/-- R24 past the last frame byte. -/
theorem State.frameByte_of_le {s : State} (past : s.tx.len.toNat ≤ s.tx.idx.toNat) : s.frameByte = some termByte :=
  if_neg past.not_gt

/-- R25 before the end of a reply. -/
theorem State.replyByte_of_lt {s : State} (before : s.tx.idx.toNat < s.tx.len.toNat) :
    s.replyByte = Store.read s.lbuf s.tx.idx.toNat :=
  if_pos before

/-- R25 past the last reply byte. -/
theorem State.replyByte_of_le {s : State} (past : s.tx.len.toNat ≤ s.tx.idx.toNat) : s.replyByte = some termByte :=
  if_neg past.not_gt

/-! The ports that look at SCH.st, each under the name of the state it looks for. -/

/-- R23, LINK-A. -/
@[simp] theorem State.outputs_aRxReady_iff (s : State) : s.outputs.aRxReady = true ↔ s.sch.st = stRxA :=
  decide_eq_true_iff

/-- R23, LINK-B. -/
@[simp] theorem State.outputs_bRxReady_iff (s : State) : s.outputs.bRxReady = true ↔ s.sch.st = stRxB :=
  decide_eq_true_iff

/-- R25, the valid. -/
@[simp] theorem State.outputs_aTxValid_iff (s : State) : s.outputs.aTxValid = true ↔ s.sch.st = stTxA :=
  decide_eq_true_iff

/-- R24, the valid. -/
@[simp] theorem State.outputs_bTxValid_iff (s : State) : s.outputs.bTxValid = true ↔ s.sch.st = stTxB :=
  decide_eq_true_iff

/-- R24: LINK-B is offered the frame byte in S_TX_B. -/
theorem State.outputs_bTxData_of_txB {s : State} (sending : s.sch.st = stTxB) : s.outputs.bTxData = s.frameByte :=
  if_pos sending

/-- R24: LINK-B is offered 0 elsewhere. -/
theorem State.outputs_bTxData_of_ne {s : State} (elsewhere : s.sch.st ≠ stTxB) : s.outputs.bTxData = some 0 :=
  if_neg elsewhere

/-- R25: LINK-A is offered the reply byte in S_TX_A. -/
theorem State.outputs_aTxData_of_txA {s : State} (sending : s.sch.st = stTxA) : s.outputs.aTxData = s.replyByte :=
  if_pos sending

/-- R25: LINK-A is offered 0 elsewhere. -/
theorem State.outputs_aTxData_of_ne {s : State} (elsewhere : s.sch.st ≠ stTxA) : s.outputs.aTxData = some 0 :=
  if_neg elsewhere

/-- The stop states are R296's and R297's. -/
theorem State.stopped_iff (s : State) : s.stopped = true ↔ s.sch.st = stStopClean ∨ s.sch.st = stStopError :=
  decide_eq_true_iff

/-- Settles O16: each port by its own lemma; the rest of R26 to R28 hands a register through. -/
theorem outputsFollowTheRegisters : Obligations.OutputsFollowTheRegisters := by
  intro s
  refine ⟨s.outputs_aRxReady_iff, s.outputs_bRxReady_iff, s.outputs_aTxValid_iff, s.outputs_bTxValid_iff,
    State.outputs_bTxData_of_ne, State.outputs_aTxData_of_ne, ?frameByte, ?frameEnd, ?replyByte, ?replyEnd,
    s.stopped_iff, rfl, rfl, rfl, rfl, rfl⟩
  case frameByte =>
    intro sending before d held
    exact (State.outputs_bTxData_of_txB sending).trans (State.frameByte_of_lt before held)
  case frameEnd =>
    intro sending past
    exact (State.outputs_bTxData_of_txB sending).trans (State.frameByte_of_le past)
  case replyByte =>
    intro sending before
    exact (State.outputs_aTxData_of_txA sending).trans (State.replyByte_of_lt before)
  case replyEnd =>
    intro sending past
    exact (State.outputs_aTxData_of_txA sending).trans (State.replyByte_of_le past)

end Sys2Proof.Machine
end

section
/-! PROOFS. 40_command_parser.md: what a commit does (R139). -/

namespace Sys2Proof.Machine

/-- The byte value test of R139 on a token record's two decimal flags. -/
theorem TokenRec.good_iff (t : TokenRec) : t.good = true ↔ t.decOk = true ∧ t.decBig = false := by
  simp [TokenRec.good]

/-! `byte_err` and what is recorded with it. -/

section Bad
variable {p : Parser} (c : Config) (t : TokenRec)

theorem commitRegs_byteErr_sticks (flagged : p.byteErr = true) :
    (commitRegs c p t).byteErr = true ∧ (commitRegs c p t).byteIdx = p.byteIdx ∧
      (commitRegs c p t).byteOff = p.byteOff := by
  simp [commitRegs_eq, flagged]

theorem commitRegs_byteErr_of_good (clear : p.byteErr = false) (good : t.good = true) :
    (commitRegs c p t).byteErr = false := by
  simp [commitRegs_eq, clear, good]

theorem commitRegs_byteErr_of_bad (clear : p.byteErr = false) (bad : t.good = false) :
    (commitRegs c p t).byteErr = true ∧ (commitRegs c p t).byteIdx = p.ndata ∧ (commitRegs c p t).byteOff = t.start := by
  simp [commitRegs_eq, clear, bad]

end Bad

/-! `ovf` and what is recorded with it. -/

section Overflow
variable {p : Parser} {c : Config} (t : TokenRec)

theorem commitRegs_ovf_sticks (flagged : p.ovf = true) :
    (commitRegs c p t).ovf = true ∧ (commitRegs c p t).ovfOff = p.ovfOff := by
  simp [commitRegs_eq, flagged]

theorem commitRegs_ovf_of_lt (clear : p.ovf = false) (fits : p.ndata.toNat < c.lbufBytes) :
    (commitRegs c p t).ovf = false := by
  simp [commitRegs_eq, clear, fits]

theorem commitRegs_ovf_of_le (clear : p.ovf = false) (full : c.lbufBytes ≤ p.ndata.toNat) :
    (commitRegs c p t).ovf = true ∧ (commitRegs c p t).ovfOff = t.start := by
  simp [commitRegs_eq, clear, full]

end Overflow

/-! LBUF. -/

/-- A good token that fits is stored at its index. -/
theorem read_commitByte_same {c : Config} {p : Parser} (m : Memory) {t : TokenRec} (good : t.good = true)
    (fits : p.ndata.toNat < c.lbufBytes) : Store.read (commitByte c p m t) p.ndata.toNat = some t.decVal := by
  rw [read_commitByte, if_pos ⟨rfl, good, fits⟩]

/-- What a commit leaves of LBUF: every other index, all of it when the token is bad, and all from LBUF_BYTES on. -/
theorem read_commitByte_frame {c : Config} {p : Parser} (m : Memory) {t : TokenRec} {k : Nat}
    (apart : k ≠ p.ndata.toNat ∨ t.good ≠ true ∨ c.lbufBytes ≤ k) :
    Store.read (commitByte c p m t) k = Store.read m k := by
  rw [read_commitByte, if_neg]
  rintro ⟨rfl, good, fits⟩
  rcases apart with elsewhere | bad | past
  · exact elsewhere rfl
  · exact bad good
  · exact past.not_gt fits

/-- Settles O29: each flag by its own cases (already set, stays clear, set now), then LBUF's write and frame; the
registers left alone are read off `commitRegs_eq`. -/
theorem commitStoresOrFlags : Obligations.CommitStoresOrFlags := by
  intro c p m t
  simp only [← t.good_iff]
  refine ⟨?index, commitRegs_byteErr_sticks c t, ?byteValue, commitRegs_ovf_sticks t, commitRegs_ovf_of_lt t,
    commitRegs_ovf_of_le t, ?stored, fun _ => read_commitByte_frame m, ?registers⟩
  case index => rw [commitRegs_eq, sat16_toNat]
  case byteValue =>
    intro clear
    exact ⟨commitRegs_byteErr_of_good c t clear,
      fun bad => commitRegs_byteErr_of_bad c t clear (Bool.eq_false_iff.mpr bad)⟩
  case stored =>
    intro decOk decBig fits
    exact read_commitByte_same m (t.good_iff.mpr ⟨decOk, decBig⟩) fits
  case registers => simp only [commitRegs_eq, and_self]

end Sys2Proof.Machine
end

section
/-! PROOFS. 41_frame_encoder.md: the frames of `encode(P, A)` (R171), each a slice of the payload with the trailer (R172). -/

namespace Sys2Proof.Machine

/-! The trailer stands behind any bytes, at the last two places. -/

@[simp] theorem length_trailer (a : Half) : (trailer a).length = 2 := rfl

theorem getElem?_append_trailer_high (body : List Byte) (a : Half) :
    (body ++ trailer a)[(body ++ trailer a).length - 2]? = some (BitVec.ofNat 8 (a.toNat / 256)) := by
  simp [trailer]

theorem getElem?_append_trailer_low (body : List Byte) (a : Half) :
    (body ++ trailer a)[(body ++ trailer a).length - 1]? = some (BitVec.ofNat 8 (a.toNat % 256)) := by
  simp [trailer]

/-! Which frames there are. -/

section Frames
variable (c : Config) (payload : List Byte) (a : Half) (k : Nat)

@[simp] theorem length_encodeFrames : (encodeFrames c payload a).length = nframes c payload.length := by
  rw [encodeFrames, List.length_map, List.length_range]

@[simp] theorem getElem_encodeFrames (listed : k < (encodeFrames c payload a).length) :
    (encodeFrames c payload a)[k] = frameBytes c payload a k := by
  simp only [encodeFrames, List.getElem_map, List.getElem_range]

/-- The frames listed are `frameBytes` at the indices below `nframes`, and nothing else. -/
theorem getElem?_encodeFrames_eq_some_iff {f : List Byte} :
    (encodeFrames c payload a)[k]? = some f ↔ k < nframes c payload.length ∧ frameBytes c payload a k = f := by
  simp only [List.getElem?_eq_some_iff, getElem_encodeFrames, length_encodeFrames, exists_prop]

/-! One frame. Its payload part ends at `min(len(P), (k+1)*PCAP)`. -/

theorem length_frameBytes :
    (frameBytes c payload a k).length = min payload.length ((k + 1) * pcap c) - k * pcap c + 2 := by
  rw [frameBytes, List.length_append, List.length_take, List.length_drop, length_trailer, Nat.succ_mul]
  omega

/-- Byte `j` of a frame's payload part is payload byte `k*PCAP + j`. -/
theorem getElem?_frameBytes_of_lt {j : Nat} (inside : k * pcap c + j < min payload.length ((k + 1) * pcap c)) :
    (frameBytes c payload a k)[j]? = payload[k * pcap c + j]? := by
  rw [Nat.succ_mul] at inside
  have inSlice : j < ((payload.drop (k * pcap c)).take (pcap c)).length := by
    rw [List.length_take, List.length_drop]
    omega
  have inCapacity : j < pcap c := by omega
  rw [frameBytes, List.getElem?_append_left inSlice, List.getElem?_take_of_lt inCapacity, List.getElem?_drop]

end Frames

/-- Settles O40: a listed frame is `frameBytes` at its index, so its length, its payload part and the two address bytes are
read off there. PCAP is `CHUNK_SIZE - 2` (R7) by definition, under every configuration. -/
theorem encodeSplitsThePayload : Obligations.EncodeSplitsThePayload := by
  intro c payload a _
  refine ⟨length_encodeFrames c payload a, fun k f listed => ?_⟩
  obtain ⟨-, rfl⟩ := (getElem?_encodeFrames_eq_some_iff c payload a k).mp listed
  exact ⟨length_frameBytes c payload a k, fun _ => getElem?_frameBytes_of_lt c payload a k,
    getElem?_append_trailer_high _ a, getElem?_append_trailer_low _ a⟩

end Sys2Proof.Machine
end

section
/-! PROOFS. 42_pending_queue.md: a push (R190) keeps the FIFO's registers in agreement (R193) and puts its frame last. -/

namespace Sys2Proof.Machine

/-- A number up to 65535 is kept by a 16-bit register (R9). -/
theorem toNat_half_of_le {n : Nat} (fits : n ≤ 65535) : (BitVec.ofNat 16 n).toNat = n :=
  (BitVec.toNat_ofNat n 16).trans (Nat.mod_eq_of_lt (by omega))

/-- Places of the ring fewer than `d` apart are different places: the entry a push writes is none of those held. -/
theorem ring_place_ne {d j n : Nat} (r : Nat) (before : j < n) (room : n < d) : (r + j) % d ≠ (r + n) % d := by
  intro same
  have together : j = n := (Nat.ModEq.add_left_cancel' r same).eq_of_lt_of_lt (before.trans room) room
  exact before.ne together

/-- The write pointer of R193 is an index of the storage. -/
theorem FifoOk.wptr_lt {s : State} (ok : FifoOk s) : s.fifo.wptr.toNat < s.cfg.fifoDepth := by
  rw [ok.wptr]
  exact Nat.mod_lt _ ok.depth.1

/-! When `fifo_push` answers, and what FIFO_PUSH makes of it. -/

theorem fifoPush_of_full {s : State} (f : Frame) (full : s.cfg.fifoDepth ≤ s.fifo.count.toNat) :
    fifoPush s f = .error .fifoPushFull :=
  if_pos full

theorem FifoOk.fifoPush_answers {s : State} (ok : FifoOk s) (f : Frame) (room : s.fifo.count.toNat < s.cfg.fifoDepth) :
    ∃ t, fifoPush s f = .ok t := by
  cases pushed : fifoPush s f with
  | ok t => exact ⟨t, rfl⟩
  | error e =>
    obtain ⟨-, full⟩ | ⟨-, past⟩ := fifoPush_error pushed
    · exact absurd room full.not_gt
    · exact absurd ok.wptr_lt past.not_gt

theorem exec_fifoPush_of_ok {s t : State} {f : Frame} (pushed : fifoPush s f = .ok t) :
    exec (.fifoPush f) s = .next t := by
  rw [exec, execFifoPush, pushed]

theorem exec_fifoPush_of_error {s : State} {f : Frame} {e : Fault} (failed : fifoPush s f = .error e) :
    exec (.fifoPush f) s = .fault e := by
  rw [exec, execFifoPush, failed]

/-! The registers after a push. -/

section Pushed
variable {s t : State} {f : Frame}

/-- A push writes the FIFO and nothing else. -/
theorem fifoPush_frame (pushed : fifoPush s f = .ok t) : t = { s with fifo := t.fifo } := by
  obtain ⟨-, -, rfl⟩ := fifoPush_ok pushed
  rfl

theorem fifoPush_cfg (pushed : fifoPush s f = .ok t) : t.cfg = s.cfg := by
  rw [fifoPush_frame pushed]

theorem fifoPush_rptr (pushed : fifoPush s f = .ok t) : t.fifo.rptr = s.fifo.rptr := by
  obtain ⟨-, -, rfl⟩ := fifoPush_ok pushed
  rfl

theorem fifoPush_mem (pushed : fifoPush s f = .ok t) :
    t.fifo.mem = Store.write s.fifo.mem s.fifo.wptr.toNat f := by
  obtain ⟨-, -, rfl⟩ := fifoPush_ok pushed
  rfl

theorem FifoOk.fifoPush_count (ok : FifoOk s) (pushed : fifoPush s f = .ok t) :
    t.fifo.count.toNat = s.fifo.count.toNat + 1 := by
  obtain ⟨room, -, rfl⟩ := fifoPush_ok pushed
  have depthMax := ok.depth.2
  exact toNat_half_of_le (by omega)

theorem FifoOk.fifoPush_wptr (ok : FifoOk s) (pushed : fifoPush s f = .ok t) :
    t.fifo.wptr.toNat = (s.fifo.wptr.toNat + 1) % s.cfg.fifoDepth := by
  obtain ⟨-, -, rfl⟩ := fifoPush_ok pushed
  obtain ⟨depthMin, depthMax⟩ := ok.depth
  exact toNat_half_of_le ((Nat.mod_lt _ depthMin).le.trans depthMax)

/-- A push keeps R193: the write pointer and the count advance together. -/
theorem FifoOk.after_fifoPush (ok : FifoOk s) (pushed : fifoPush s f = .ok t) : FifoOk t where
  depth := by rw [fifoPush_cfg pushed]; exact ok.depth
  count := by
    obtain ⟨room, -, -⟩ := fifoPush_ok pushed
    rw [fifoPush_cfg pushed, ok.fifoPush_count pushed]
    exact room
  rptr := by rw [fifoPush_cfg pushed, fifoPush_rptr pushed]; exact ok.rptr
  wptr := by
    rw [ok.fifoPush_wptr pushed, fifoPush_cfg pushed, fifoPush_rptr pushed, ok.fifoPush_count pushed, ok.wptr,
      Nat.mod_add_mod, Nat.add_assoc]

/-- The frames held after a push: those held before are at places the push does not write, and the new one is behind
them, at the write pointer. -/
theorem FifoOk.fifoFrames_fifoPush (ok : FifoOk s) (pushed : fifoPush s f = .ok t) :
    fifoFrames t = fifoFrames s ++ [some f] := by
  obtain ⟨room, -, -⟩ := fifoPush_ok pushed
  have held : ∀ j ∈ List.range s.fifo.count.toNat,
      Store.read t.fifo.mem ((s.fifo.rptr.toNat + j) % s.cfg.fifoDepth) =
        Store.read s.fifo.mem ((s.fifo.rptr.toNat + j) % s.cfg.fifoDepth) := by
    intro j listed
    rw [fifoPush_mem pushed, ok.wptr]
    exact Store.read_write_ne _ f (ring_place_ne _ (List.mem_range.mp listed) room)
  have new : Store.read t.fifo.mem ((s.fifo.rptr.toNat + s.fifo.count.toNat) % s.cfg.fifoDepth) = some f := by
    rw [fifoPush_mem pushed, ok.wptr, Store.read_write_same]
  rw [fifoFrames, fifoPush_cfg pushed, fifoPush_rptr pushed, ok.fifoPush_count pushed, List.range_succ, List.map_append,
    List.map_congr_left held, List.map_singleton, new, fifoFrames]

end Pushed

/-- Settles O46: a full FIFO refuses; otherwise the push answers, and its state is read off the lemmas above. -/
theorem pushAppendsAFrame : Obligations.PushAppendsAFrame := by
  refine ⟨rfl, fun s f ok => ⟨?full, ?notFull⟩⟩
  case full =>
    intro full
    exact exec_fifoPush_of_error (fifoPush_of_full f full.ge)
  case notFull =>
    intro notFull
    obtain ⟨t, pushed⟩ := ok.fifoPush_answers f (lt_of_le_of_ne ok.count notFull)
    refine ⟨t, exec_fifoPush_of_ok pushed, ok.after_fifoPush pushed, ok.fifoFrames_fifoPush pushed, ok.fifoPush_count pushed,
      ok.fifoPush_wptr pushed, fifoPush_rptr pushed, ?written, ?others, fifoPush_frame pushed⟩
    case written => rw [fifoPush_mem pushed, Store.read_write_same]
    case others =>
      intro k elsewhere
      rw [fifoPush_mem pushed, Store.read_write_ne _ f elsewhere]

end Sys2Proof.Machine
end

section
/-! PROOFS. 44_scheduler.md: the polls S_POLL_A (R244) and S_POLL_B (R251). -/

namespace Sys2Proof.Machine

/-- R23 to R25, R71: a stream is ready or valid in its own state only, so in every other state nothing moves. -/
theorem State.moves_of_not_streaming {s : State} (rxA : s.sch.st ≠ stRxA) (txA : s.sch.st ≠ stTxA)
    (rxB : s.sch.st ≠ stRxB) (txB : s.sch.st ≠ stTxB) :
    s.moves = { aRx := none, aTx := none, bRx := none, bTx := none } := by
  have aRxReady : s.outputs.aRxReady = false := Bool.eq_false_iff.mpr (mt s.outputs_aRxReady_iff.mp rxA)
  have aTxValid : s.outputs.aTxValid = false := Bool.eq_false_iff.mpr (mt s.outputs_aTxValid_iff.mp txA)
  have bRxReady : s.outputs.bRxReady = false := Bool.eq_false_iff.mpr (mt s.outputs_bRxReady_iff.mp rxB)
  have bTxValid : s.outputs.bTxValid = false := Bool.eq_false_iff.mpr (mt s.outputs_bTxValid_iff.mp txB)
  simp only [State.moves, aRxReady, aTxValid, bRxReady, bTxValid, Bool.false_and, Bool.false_eq_true, if_false]

/-- N_MAX is at least 1 (R7). -/
theorem one_le_nMax (c : Config) : 1 ≤ nMax c := le_max_left 1 _

/-- R244's test as R193 counts the free entries. A count beyond FIFO_DEPTH leaves none (log 10), which is never N_MAX. -/
theorem fifoAdmits_iff_le_fifoFree (s : State) : fifoAdmits s = true ↔ nMax s.cfg ≤ fifoFree s := by
  have positive := one_le_nMax s.cfg
  rw [fifoAdmits, decide_eq_true_iff, fifoFree]
  omega

/-! What each poll does, by whether a line starts. -/

section Poll
variable {s : State}

/-- R244 where a line starts. -/
theorem exec_sPollA_of_starts (starts : s.pins.aRxValid = true ∧ nMax s.cfg ≤ fifoFree s) :
    exec .sPollA s = .next ({ s with p := Parser.init }.setSt stRxA) := by
  rw [← fifoAdmits_iff_le_fifoFree, ← Bool.and_eq_true] at starts
  rw [exec, execSPollA, if_pos starts]

/-- R244 where none does. -/
theorem exec_sPollA_of_not_starts (waits : ¬ (s.pins.aRxValid = true ∧ nMax s.cfg ≤ fifoFree s)) :
    exec .sPollA s = .next (s.setSt stPollQ) := by
  rw [← fifoAdmits_iff_le_fifoFree, ← Bool.and_eq_true] at waits
  rw [exec, execSPollA, if_neg waits]

/-- R251 where a line starts. -/
theorem exec_sPollB_of_offered (offered : s.pins.bRxValid = true) :
    exec .sPollB s = .next ({ s with p := Parser.init }.setSt stRxB) := by
  rw [exec, execSPollB, if_pos offered]

/-- R251 where none does. -/
theorem exec_sPollB_of_not_offered (idle : ¬ s.pins.bRxValid = true) :
    exec .sPollB s = .next (s.setSt stPollA) := by
  rw [exec, execSPollB, if_neg idle]

end Poll

/-- Settles O17: the two branches of the poll, and S_POLL_A is none of the four stream states. -/
theorem pollAStartsALineOnlyWithRoom : Obligations.PollAStartsALineOnlyWithRoom := by
  refine ⟨rfl, fun s => ⟨?branches, fun polling => ?moves⟩⟩
  case branches =>
    split
    next starts => exact exec_sPollA_of_starts starts
    next waits => exact exec_sPollA_of_not_starts waits
  case moves => apply State.moves_of_not_streaming <;> rw [polling] <;> decide

/-- Settles O18: the two branches of the poll, and S_POLL_B is none of the four stream states. -/
theorem pollBStartsALineWhenAByteIsOffered : Obligations.PollBStartsALineWhenAByteIsOffered := by
  refine ⟨rfl, fun s => ⟨?branches, fun polling => ?moves⟩⟩
  case branches =>
    split
    next offered => exact exec_sPollB_of_offered offered
    next idle => exact exec_sPollB_of_not_offered idle
  case moves => apply State.moves_of_not_streaming <;> rw [polling] <;> decide

end Sys2Proof.Machine
end

section
/-! PROOFS. 60_exceptions.md: how a running state is left for a stop state (R298). -/

namespace Sys2Proof.Machine

section StopEntry

variable {s : State} (legal : legalConfig s.cfg = true) (noReset : s.pins.rst = false) (running : s.stopped = false)
include legal noReset running

/-- R293 at its place in R240: tested after reset only, so it wins over a cancellation (R295). -/
theorem step_of_transport_failure (failure : s.pins.aErr = true ∨ s.pins.bErr = true) :
    step s = .next ((enterStop s stStopError s.pins.aErr s.pins.bErr).after s 1) := by
  have stops : (!s.stopped && (s.pins.aErr || s.pins.bErr)) = true := by
    rw [running, Bool.not_false, Bool.true_and, Bool.or_eq_true]
    exact failure
  rw [step, edge, if_neg (ne_true_of_eq_false · legal), if_neg (Bool.eq_false_iff.mp noReset), if_pos stops]

/-- R294 at its place in R240: tested after the transport failures, and before `decode` (R242). -/
theorem step_of_cancel (noFailureA : s.pins.aErr = false) (noFailureB : s.pins.bErr = false)
    (cancelled : s.pins.cancel = true) :
    step s = .next ((enterStop s stStopClean s.pins.aErr s.pins.bErr).after s 1) := by
  have noFailure : ¬ (!s.stopped && (s.pins.aErr || s.pins.bErr)) = true := by
    rw [noFailureA, noFailureB, Bool.or_false, Bool.and_false]
    exact Bool.false_ne_true
  have stops : (!s.stopped && s.pins.cancel) = true := by
    rw [running, cancelled, Bool.not_false, Bool.true_and]
  rw [step, edge, if_neg (ne_true_of_eq_false · legal), if_neg (Bool.eq_false_iff.mp noReset), if_neg noFailure,
    if_pos stops]

end StopEntry

/-- R298 into S_STOP_ERROR: the cause names the links that failed (R31). -/
theorem enterStop_stopError (s : State) (aErr bErr : Bool) :
    enterStop s stStopError aErr bErr = { s with
      sch := { st := stStopError, stopCause := BitVec.ofNat 2 (bErr.toNat * 2 + aErr.toNat) }
      rpt := { s.rpt with valid := false } } :=
  rfl

/-- R298 into S_STOP_CLEAN: no cause (R31). -/
theorem enterStop_stopClean (s : State) (aErr bErr : Bool) :
    enterStop s stStopClean aErr bErr = { s with
      sch := { st := stStopClean, stopCause := 0 }
      rpt := { s.rpt with valid := false } } :=
  rfl

/-- Settles O8: R240 picks the stop state, and `enterStop` says what entering it writes. -/
theorem stopEntryWritesOnlyTheStopRegisters : Obligations.StopEntryWritesOnlyTheStopRegisters := by
  intro s legal noReset running
  refine ⟨fun failure => ?transportFailure, fun noFailureA noFailureB cancelled => ?cancellation⟩
  case transportFailure =>
    rw [step_of_transport_failure legal noReset running failure, enterStop_stopError]
    rfl
  case cancellation =>
    rw [step_of_cancel legal noReset running noFailureA noFailureB cancelled, enterStop_stopClean]
    rfl

end Sys2Proof.Machine
end

section
/-! PROOFS. 70_reset_and_hazards.md: what a reset edge leaves (R321). -/

namespace Sys2Proof.Machine

/-- Reset at its place in R240: tested before the stop inputs and before `decode`. -/
theorem step_of_reset {s : State} (legal : legalConfig s.cfg = true) (resetting : s.pins.rst = true) :
    step s = .next ((doReset s).after s 1) := by
  rw [step, edge, if_neg (ne_true_of_eq_false · legal), if_pos resetting]

/-- Settles O7: R240 performs `doReset` whatever else is asserted. Moving the environment on touches no register, so each
value is the one `State.reset` gives, and the two storages are left empty. -/
theorem resetEdgeLeavesTheResetValues : Obligations.ResetEdgeLeavesTheResetValues := by
  intro s legal resetting
  refine ⟨(doReset s).after s 1, step_of_reset legal resetting, rfl, rfl, ?parser, ?encoder, rfl, rfl, rfl, rfl, rfl, rfl,
    ?report, ?lbuf, ?fifoMem, ?txBuf, ?config⟩
  case lbuf => exact Store.read_nil
  case fifoMem => exact Store.read_nil
  case config => exact doReset_cfg s
  case parser | encoder | report | txBuf => rfl

end Sys2Proof.Machine
end

section
/-! PROOFS. 30_encoding.md: decoding an encoded operation, and the first line of the bytes a link offers (R90, R106). -/

namespace Sys2Proof

/-! The first line (R90). -/

theorem lineWf_cons (b : Byte) (bs : List Byte) : lineWf (b :: bs) = true ↔ b ≠ termByte ∧ lineWf bs = true := by
  simp [lineWf]

theorem lineWf_append (xs ys : List Byte) : lineWf (xs ++ ys) = true ↔ lineWf xs = true ∧ lineWf ys = true := by
  simp [lineWf]

/-- A content without terminator, its terminator and any bytes after it: the first line is that content. -/
theorem splitLine_append {content : List Byte} (rest : List Byte) (wf : lineWf content = true) :
    splitLine (content ++ termByte :: rest) = some (content, rest) := by
  induction content with
  | nil => simp [splitLine]
  | cons b bs ih =>
    obtain ⟨hb, hbs⟩ := (lineWf_cons b bs).mp wf
    simp [splitLine, hb, ih hbs]

/-- No terminator, no line. -/
theorem splitLine_eq_none {bytes : List Byte} (wf : lineWf bytes = true) : splitLine bytes = none := by
  induction bytes with
  | nil => rfl
  | cons b bs ih =>
    obtain ⟨hb, hbs⟩ := (lineWf_cons b bs).mp wf
    simp [splitLine, hb, ih hbs]

/-- What the first line is: a content without terminator, ended by one. -/
theorem splitLine_eq_some {bytes content rest : List Byte} (split : splitLine bytes = some (content, rest)) :
    bytes = content ++ termByte :: rest ∧ lineWf content = true := by
  induction bytes generalizing content with
  | nil => simp [splitLine] at split
  | cons b bs ih =>
    by_cases hb : b = termByte
    · simp only [splitLine, hb, if_true, Option.some.injEq, Prod.mk.injEq] at split
      obtain ⟨rfl, rfl⟩ := split
      exact ⟨by rw [hb, List.nil_append], rfl⟩
    · simp only [splitLine, hb, if_false] at split
      split at split
      next => cases split
      next c r inner =>
        cases split
        obtain ⟨rfl, wf⟩ := ih inner
        exact ⟨rfl, (lineWf_cons b c).mpr ⟨hb, wf⟩⟩

theorem decode_lineA {content : List Byte} (rest : List Byte) (wf : lineWf content = true) :
    decode (.lineA (content ++ termByte :: rest)) = .ok (lineInstrA content) := by
  rw [decode, splitLine_append rest wf]

theorem decode_lineB {content : List Byte} (rest : List Byte) (wf : lineWf content = true) :
    decode (.lineB (content ++ termByte :: rest)) = .ok (lineInstrB content) := by
  rw [decode, splitLine_append rest wf]

/-! Which line a content is (R106). -/

theorem lineInstrA_of_data (body : List Byte) : lineInstrA (cmdPfx ++ body) = .cmdData body := by
  simp [lineInstrA, cmdPfx]

theorem lineInstrB_of_return (body : List Byte) : lineInstrB (repPfx ++ body) = .replyReturn body := by
  simp [lineInstrB, repPfx]

theorem lineInstrA_of_other {content : List Byte} (other : content.take 5 ≠ cmdPfx) :
    lineInstrA content = .lineOtherA content :=
  if_neg other

theorem lineInstrB_of_other {content : List Byte} (other : content.take 7 ≠ repPfx) :
    lineInstrB content = .lineOtherB content :=
  if_neg other

/-- A LINK-A content is the DATA characters and a body, or it does not begin with them. -/
theorem dataLine_or_other (content : List Byte) : (∃ body, content = cmdPfx ++ body) ∨ content.take 5 ≠ cmdPfx := by
  by_cases data : content.take 5 = cmdPfx
  · exact .inl ⟨content.drop 5, by rw [← data, List.take_append_drop]⟩
  · exact .inr data

/-- The same of a LINK-B content and the RETURN characters. -/
theorem returnLine_or_other (content : List Byte) : (∃ body, content = repPfx ++ body) ∨ content.take 7 ≠ repPfx := by
  by_cases reply : content.take 7 = repPfx
  · exact .inl ⟨content.drop 7, by rw [← reply, List.take_append_drop]⟩
  · exact .inr reply

theorem take_cmdPfx_append (body : List Byte) : (cmdPfx ++ body).take 5 = cmdPfx := rfl

theorem take_repPfx_append (body : List Byte) : (repPfx ++ body).take 7 = repPfx := rfl

theorem lineWf_cmdPfx_append (body : List Byte) : lineWf (cmdPfx ++ body) = lineWf body := rfl

theorem lineWf_repPfx_append (body : List Byte) : lineWf (repPfx ++ body) = lineWf body := rfl

/-! What a line's instruction is, for either kind of content. -/

/-- A LINK-A line: well formed with its content, and re-encoded to the line. -/
theorem lineInstrA_spec (c : Config) {content : List Byte} (wf : lineWf content = true) :
    (lineInstrA content).wf c = true ∧ (lineInstrA content).content = content ∧
      encode (lineInstrA content) = .lineA (content ++ [termByte]) ∧
      ((∃ body, lineInstrA content = .cmdData body) ↔ content.take 5 = cmdPfx) := by
  obtain ⟨body, rfl⟩ | other := dataLine_or_other content
  · rw [lineInstrA_of_data]
    exact ⟨wf, rfl, rfl, iff_of_true ⟨body, rfl⟩ rfl⟩
  · rw [lineInstrA_of_other other]
    refine ⟨?_, rfl, rfl, iff_of_false (fun ⟨_, same⟩ => by cases same) other⟩
    simpa [Instr.wf, wf] using other

/-- A LINK-B line: well formed with its content, and re-encoded to the line. -/
theorem lineInstrB_spec (c : Config) {content : List Byte} (wf : lineWf content = true) :
    (lineInstrB content).wf c = true ∧ (lineInstrB content).content = content ∧
      encode (lineInstrB content) = .lineB (content ++ [termByte]) ∧
      ((∃ body, lineInstrB content = .replyReturn body) ↔ content.take 7 = repPfx) := by
  obtain ⟨body, rfl⟩ | other := returnLine_or_other content
  · rw [lineInstrB_of_return]
    exact ⟨wf, rfl, rfl, iff_of_true ⟨body, rfl⟩ rfl⟩
  · rw [lineInstrB_of_other other]
    refine ⟨?_, rfl, rfl, iff_of_false (fun ⟨_, same⟩ => by cases same) other⟩
    simpa [Instr.wf, wf] using other

/-- Settles O1, by the kind of operation: a line by its first line, a scheduler code and a FIFO control value by the tables. -/
theorem decodeOfEncodeIsTheInstruction : Obligations.DecodeOfEncodeIsTheInstruction := by
  intro c i wf
  cases i with
  | cmdData body => exact (decode_lineA (content := cmdPfx ++ body) [] wf).trans (congrArg _ (lineInstrA_of_data body))
  | replyReturn body => exact (decode_lineB (content := repPfx ++ body) [] wf).trans (congrArg _ (lineInstrB_of_return body))
  | lineOtherA content =>
    obtain ⟨line, other⟩ := Bool.and_eq_true_iff.mp wf
    exact (decode_lineA [] line).trans (congrArg _ (lineInstrA_of_other (of_decide_eq_true other)))
  | lineOtherB content =>
    obtain ⟨line, other⟩ := Bool.and_eq_true_iff.mp wf
    exact (decode_lineB [] line).trans (congrArg _ (lineInstrB_of_other (of_decide_eq_true other)))
  | sPollA | sRxA | sEnc | sPollQ | sTxB | sThrottle | sPollB | sRxB | sTxA | sStopClean | sStopError => rfl
  | fifoPush _ | fifoPop | fifoPushPop _ => rfl

/-- Settles O2: the first line is the content, and its instruction is read off it; without terminator there is none. -/
theorem linesDecodeToTheFirstLine : Obligations.LinesDecodeToTheFirstLine := by
  intro c content rest wf
  simp only [List.append_assoc, List.singleton_append]
  refine ⟨⟨_, decode_lineA rest wf, lineInstrA_spec c wf⟩, ⟨_, decode_lineB rest wf, lineInstrB_spec c wf⟩, ?_, ?_⟩
  · rw [decode, splitLine_eq_none wf]
  · rw [decode, splitLine_eq_none wf]

/-- Settles O3: the tables' words, each run through the decoder. -/
theorem tableWordsDecode : Obligations.TableWordsDecode :=
  ⟨rfl, rfl, rfl, rfl, rfl, rfl, rfl, rfl⟩

end Sys2Proof
end

section
/-! PROOFS. 30_encoding.md and 40_command_parser.md: the tokens of a body (R94), their values (R99, R102), and the
canonical text of a line (R107). -/

namespace Sys2Proof.Machine

/-! The token record (R136, R137). -/

theorem decValue_append_singleton (bs : List Byte) (b : Byte) :
    decValue (bs ++ [b]) = decValue bs * 10 + (b.toNat - 0x30) := by
  simp [decValue]

theorem hexValue_append_singleton (bs : List Byte) (b : Byte) :
    hexValue (bs ++ [b]) = hexValue bs * 16 + hexDigit b := by
  simp [hexValue]

theorem hexDigit_lt {b : Byte} (hex : isHex b = true) : hexDigit b < 16 := by
  simp only [isHex, isDigit, Bool.or_eq_true, decide_eq_true_eq] at hex
  unfold hexDigit
  split_ifs <;> omega

/-- The record `t` holds both readings of a token's bytes `bs`, the first at offset `cur` (R137). -/
structure TokenRec.Reads (t : TokenRec) (cur : Half) (bs : List Byte) : Prop where
  start : t.start = cur
  decOk : t.decOk = bs.all isDigit
  hexOk : t.hexOk = bs.all isHex
  decBig : t.decOk = true → (t.decBig = true ↔ 255 < decValue bs)
  decVal : t.decOk = true → t.decBig = false → t.decVal.toNat = decValue bs
  hexBig : t.hexOk = true → (t.hexBig = true ↔ 0xFFFF < hexValue bs)
  hexVal : t.hexOk = true → t.hexVal.toNat = hexValue bs % 65536

theorem TokenRec.fresh_reads (cur : Half) : (TokenRec.fresh cur).Reads cur [] := by
  constructor <;> simp [TokenRec.fresh, decValue, hexValue]

/-- One half of `accumulate` leaves the other half's registers alone. -/
theorem TokenRec.accDec_hex (t : TokenRec) (b : Byte) :
    (t.accDec b).start = t.start ∧ (t.accDec b).hexOk = t.hexOk ∧ (t.accDec b).hexBig = t.hexBig ∧
      (t.accDec b).hexVal = t.hexVal := by
  unfold TokenRec.accDec; split <;> exact ⟨rfl, rfl, rfl, rfl⟩

theorem TokenRec.accHex_dec (t : TokenRec) (b : Byte) :
    (t.accHex b).start = t.start ∧ (t.accHex b).decOk = t.decOk ∧ (t.accHex b).decBig = t.decBig ∧
      (t.accHex b).decVal = t.decVal := by
  unfold TokenRec.accHex; split <;> exact ⟨rfl, rfl, rfl, rfl⟩

theorem TokenRec.accDec_decOk (t : TokenRec) (b : Byte) : (t.accDec b).decOk = (t.decOk && isDigit b) := by
  unfold TokenRec.accDec; split <;> simp [*]

theorem TokenRec.accHex_hexOk (t : TokenRec) (b : Byte) : (t.accHex b).hexOk = (t.hexOk && isHex b) := by
  unfold TokenRec.accHex; split <;> simp [*]

theorem TokenRec.accDec_of_digit (t : TokenRec) {b : Byte} (digit : isDigit b = true) :
    ((t.accDec b).decBig = true ↔ t.decBig = true ∨ 255 < t.decVal.toNat * 10 + (b.toNat - 0x30)) ∧
      (t.accDec b).decVal.toNat = (t.decVal.toNat * 10 + (b.toNat - 0x30)) % 256 := by
  simp [TokenRec.accDec, digit]

theorem TokenRec.accHex_of_hex (t : TokenRec) {b : Byte} (hex : isHex b = true) :
    ((t.accHex b).hexBig = true ↔ t.hexBig = true ∨ 0x1000 ≤ t.hexVal.toNat) ∧
      (t.accHex b).hexVal.toNat = (t.hexVal.toNat * 16 + hexDigit b) % 65536 := by
  simp [TokenRec.accHex, hex]

/-- One more byte: a saturated reading stays saturated, since both readings only grow. -/
theorem TokenRec.Reads.accumulate {t : TokenRec} {cur : Half} {bs : List Byte} (r : t.Reads cur bs) (b : Byte) :
    (t.accumulate b).Reads cur (bs ++ [b]) := by
  obtain ⟨decStart, decHexOk, decHexBig, decHexVal⟩ := t.accDec_hex b
  obtain ⟨hexStart, hexDecOk, hexDecBig, hexDecVal⟩ := (t.accDec b).accHex_dec b
  have decOk : (t.accumulate b).decOk = (t.decOk && isDigit b) := hexDecOk.trans (t.accDec_decOk b)
  have hexOk : (t.accumulate b).hexOk = (t.hexOk && isHex b) := ((t.accDec b).accHex_hexOk b).trans (by rw [decHexOk])
  have decimal : (t.accumulate b).decOk = true → t.decOk = true ∧ isDigit b = true :=
    fun ok => Bool.and_eq_true_iff.mp (decOk ▸ ok)
  have hexadecimal : (t.accumulate b).hexOk = true → t.hexOk = true ∧ isHex b = true :=
    fun ok => Bool.and_eq_true_iff.mp (hexOk ▸ ok)
  refine ⟨hexStart.trans (decStart.trans r.start), ?_, ?_, fun ok => ?_, fun ok small => ?_, fun ok => ?_, fun ok => ?_⟩
  · rw [decOk, r.decOk, List.all_append, List.all_cons, List.all_nil, Bool.and_true]
  · rw [hexOk, r.hexOk, List.all_append, List.all_cons, List.all_nil, Bool.and_true]
  · obtain ⟨before, digit⟩ := decimal ok
    have big := r.decBig before
    have val := r.decVal before
    rw [TokenRec.accumulate, hexDecBig, (t.accDec_of_digit digit).1, decValue_append_singleton]
    rcases hb : t.decBig with _ | _ <;> simp only [hb, Bool.false_eq_true, false_iff, true_iff, true_or, false_or] at big ⊢
    · rw [val hb]
    · omega
  · obtain ⟨before, digit⟩ := decimal ok
    rw [TokenRec.accumulate, hexDecBig, Bool.eq_false_iff, Ne, (t.accDec_of_digit digit).1, not_or,
      Bool.not_eq_true] at small
    rw [TokenRec.accumulate, hexDecVal, (t.accDec_of_digit digit).2, decValue_append_singleton,
      ← r.decVal before small.1, Nat.mod_eq_of_lt (by omega)]
  · obtain ⟨before, hex⟩ := hexadecimal ok
    have big := r.hexBig before
    have val := r.hexVal before
    have digit := hexDigit_lt hex
    rw [TokenRec.accumulate, ((t.accDec b).accHex_of_hex hex).1, decHexBig, decHexVal, hexValue_append_singleton]
    rcases hb : t.hexBig with _ | _ <;> simp only [hb, Bool.false_eq_true, false_iff, true_iff, true_or, false_or] at big ⊢
    · omega
    · omega
  · obtain ⟨before, hex⟩ := hexadecimal ok
    have val := r.hexVal before
    rw [TokenRec.accumulate, ((t.accDec b).accHex_of_hex hex).2, decHexVal, hexValue_append_singleton]
    omega

theorem TokenRec.Reads.foldl {t : TokenRec} {cur : Half} {bs : List Byte} (r : t.Reads cur bs) (more : List Byte) :
    (more.foldl TokenRec.accumulate t).Reads cur (bs ++ more) := by
  induction more generalizing t bs with
  | nil => rwa [List.append_nil]
  | cons b more ih => simpa using ih (r.accumulate b)

/-- Settles O28: the record reads the empty token after R136 and each byte keeps that. -/
theorem tokenRecordHoldsBothReadings : Obligations.TokenRecordHoldsBothReadings := by
  intro cur bs
  have r := (TokenRec.fresh_reads cur).foldl bs
  exact ⟨_, rfl, r.start, r.decOk, r.hexOk, fun ok => ⟨r.decBig ok, r.decVal ok⟩, fun ok => ⟨r.hexBig ok, r.hexVal ok⟩⟩

/-- The record that the byte steps hold after a token's bytes. -/
def Token.record (t : Token) : TokenRec := t.bytes.foldl TokenRec.accumulate (TokenRec.fresh (sat16 t.start))

theorem Token.record_reads (t : Token) : t.record.Reads (sat16 t.start) t.bytes :=
  (TokenRec.fresh_reads _).foldl t.bytes

@[simp] theorem Token.record_start (t : Token) : t.record.start = sat16 t.start := t.record_reads.start

/-- The byte value test on the record is the one on the token (R99, R139). -/
@[simp] theorem Token.record_good (t : Token) : t.record.good = t.isByteValue := by
  have r := t.record_reads
  rw [Bool.eq_iff_iff, t.record.good_iff, Token.isByteValue, Bool.and_eq_true, decide_eq_true_iff, ← r.decOk]
  refine and_congr_right fun ok => ?_
  rw [Bool.eq_false_iff, Ne, r.decBig ok, not_lt]

theorem Token.record_decVal {t : Token} (value : t.isByteValue = true) :
    t.record.decVal = BitVec.ofNat 8 (decValue t.bytes) := by
  obtain ⟨ok, small⟩ := t.record.good_iff.mp (t.record_good.trans value)
  rw [← t.record_reads.decVal ok small, BitVec.ofNat_toNat, BitVec.setWidth_eq]

@[simp] theorem Token.record_hexOk (t : Token) : t.record.hexOk = t.bytes.all isHex := t.record_reads.hexOk

theorem Token.record_hexVal {t : Token} (hex : t.bytes.all isHex = true) :
    t.record.hexVal = BitVec.ofNat 16 (hexValue t.bytes) := by
  apply BitVec.eq_of_toNat_eq
  rw [t.record_reads.hexVal (t.record_hexOk.trans hex), BitVec.toNat_ofNat]

theorem Token.record_hexBig_iff {t : Token} (hex : t.bytes.all isHex = true) :
    t.record.hexBig = true ↔ hexValue t.bytes > 0xFFFF :=
  t.record_reads.hexBig (t.record_hexOk.trans hex)

theorem Token.record_extend_none (b : Byte) (off : Nat) :
    (Token.extend none b off).record = (TokenRec.fresh (sat16 off)).accumulate b := rfl

theorem Token.record_extend_some (t : Token) (b : Byte) (off : Nat) :
    (Token.extend (some t) b off).record = t.record.accumulate b := by
  simp [Token.extend, Token.record]

/-! The first token that is no byte value (R128, R214). -/

theorem firstBad_append_singleton (k : Nat) (ts : List Token) (t : Token) :
    firstBad k (ts ++ [t]) =
      match firstBad k ts with
      | some found => some found
      | none => if t.isByteValue then none else some (k + ts.length, t) := by
  induction ts generalizing k with
  | nil => simp [firstBad]
  | cons u ts ih =>
    by_cases hu : u.isByteValue = true
    · simp only [List.cons_append, firstBad, hu, if_true, ih (k + 1), List.length_cons, Nat.add_assoc, Nat.add_comm 1]
    · simp only [List.cons_append, firstBad, hu, Bool.false_eq_true, if_false]

theorem firstBad_eq_none_iff (k : Nat) (ts : List Token) :
    firstBad k ts = none ↔ ∀ t ∈ ts, t.isByteValue = true := by
  induction ts generalizing k with
  | nil => simp [firstBad]
  | cons u ts ih =>
    by_cases hu : u.isByteValue = true
    · simp [firstBad, hu, ih]
    · simp [firstBad, hu]

@[simp] theorem length_dataBytes (ts : List Token) : (dataBytes ts).length = ts.length :=
  List.length_map ..

/-! The tokens of a body. -/

/-- A trailing WS byte ends the open token and adds none. -/
theorem tokensFrom_append_ws {w : Byte} (ws : isWs w = true) (bs : List Byte) (off : Nat) (cur : Option Token) :
    tokensFrom off cur (bs ++ [w]) = tokensFrom off cur bs := by
  induction bs generalizing off cur with
  | nil => simp [tokensFrom, ws]
  | cons b bs ih => simp [tokensFrom, ih]

/-- A run of bytes not in WS only extends the open token. -/
theorem tokensFrom_append_of_open {run : List Byte} (noWs : ∀ b ∈ run, isWs b = false) (off : Nat) (t : Token)
    (more : List Byte) :
    tokensFrom off (some t) (run ++ more) =
      tokensFrom (off + run.length) (some { t with bytes := t.bytes ++ run }) more := by
  induction run generalizing off t with
  | nil => simp
  | cons b run ih =>
    have first : isWs b = false := noWs b List.mem_cons_self
    have others : ∀ x ∈ run, isWs x = false := fun x hx => noWs x (List.mem_cons_of_mem b hx)
    simp [tokensFrom, first, Token.extend, ih others, Nat.add_assoc, Nat.add_comm 1]

/-- A word: a run of bytes not in WS, with no token open before it. -/
theorem tokensFrom_word_append {word : List Byte} (noWs : ∀ b ∈ word, isWs b = false) (ne : word ≠ []) (off : Nat)
    (more : List Byte) :
    tokensFrom off none (word ++ more) =
      tokensFrom (off + word.length) (some { bytes := word, start := off }) more := by
  cases word with
  | nil => exact absurd rfl ne
  | cons b word =>
    have first : isWs b = false := noWs b List.mem_cons_self
    have others : ∀ x ∈ word, isWs x = false := fun x hx => noWs x (List.mem_cons_of_mem b hx)
    simp [tokensFrom, first, Token.extend, tokensFrom_append_of_open others, Nat.add_assoc, Nat.add_comm 1]

/-- A line too short for its first characters stays so with one more byte, unless that byte is the last of them. -/
theorem take_append_singleton_eq_iff {pfx content : List Byte} {w : Byte} {n : Nat} (len : pfx.length = n)
    (last : pfx.getLast? ≠ some w) : (content ++ [w]).take n = pfx ↔ content.take n = pfx := by
  subst len
  by_cases long : pfx.length ≤ content.length
  · rw [List.take_append_of_le_length long]
  · rw [List.take_of_length_le (by simp; omega), List.take_of_length_le (by omega)]
    refine iff_of_false ?_ ?_
    · rintro rfl
      exact last (by simp)
    · rintro rfl
      exact long le_rfl

theorem tokens_append_ws {w : Byte} (ws : isWs w = true) {n : Nat} {content : List Byte} (long : n ≤ content.length) :
    tokens (content ++ [w]) n = tokens content n := by
  rw [tokens, List.drop_append_of_le_length long, tokensFrom_append_ws ws, tokens]

theorem le_length_of_take_eq {n : Nat} {pfx content : List Byte} (len : pfx.length = n) (starts : content.take n = pfx) :
    n ≤ content.length := by
  rw [← len, ← starts]
  exact List.length_take_le' ..

/-- Settles O6: 0x0D is WS and neither link's last fixed character, so the line's kind and its tokens are the same. -/
theorem carriageReturnChangesNothing : Obligations.CarriageReturnChangesNothing := by
  intro c content
  have ws : isWs 0x0D = true := by decide
  have kindA := take_append_singleton_eq_iff (n := 5) (pfx := cmdPfx) (content := content) (w := 0x0D) rfl (by decide)
  have kindB := take_append_singleton_eq_iff (n := 7) (pfx := repPfx) (content := content) (w := 0x0D) rfl (by decide)
  constructor
  · by_cases data : content.take 5 = cmdPfx
    · rw [parseCmd, parseCmd, tokens_append_ws ws (le_length_of_take_eq (n := 5) (pfx := cmdPfx) rfl data),
        if_neg (not_not.mpr (kindA.mpr data)),
        if_neg (not_not.mpr data)]
    · rw [parseCmd, parseCmd, if_pos (mt kindA.mp data), if_pos data]
  · by_cases reply : content.take 7 = repPfx
    · rw [parseReply, parseReply, tokens_append_ws ws (le_length_of_take_eq (n := 7) (pfx := repPfx) rfl reply),
        if_neg (not_not.mpr (kindB.mpr reply)),
        if_neg (not_not.mpr reply)]
    · rw [parseReply, parseReply, if_pos (mt kindB.mp reply), if_pos reply]

/-! The canonical text (R107). -/

/-- The digits' characters: no WS, decimal, with their value. -/
theorem digitChar_spec {n : Nat} (digit : n < 10) :
    isWs (BitVec.ofNat 8 (0x30 + n)) = false ∧ isDigit (BitVec.ofNat 8 (0x30 + n)) = true ∧
      (BitVec.ofNat 8 (0x30 + n)).toNat - 0x30 = n := by
  revert n
  decide

/-- A byte in decimal is a word of digits with that value. -/
theorem decText_spec (b : Byte) :
    (∀ x ∈ decText b, isWs x = false) ∧ decText b ≠ [] ∧ (decText b).all isDigit = true ∧ decValue (decText b) = b.toNat := by
  have bound := b.isLt
  have low := digitChar_spec (Nat.mod_lt b.toNat (by decide : 0 < 10))
  have mid := digitChar_spec (Nat.mod_lt (b.toNat / 10) (by decide : 0 < 10))
  unfold decText
  split_ifs with one two
  · have top := digitChar_spec one
    simp [decValue, -BitVec.toNat_ofNat, top]
  · have top := digitChar_spec (show b.toNat / 10 < 10 by omega)
    simp [decValue, -BitVec.toNat_ofNat, top, low]
    omega
  · have top := digitChar_spec (show b.toNat / 100 < 10 by omega)
    simp [decValue, -BitVec.toNat_ofNat, top, mid, low]
    omega

/-- Digit characters in lower case: no WS, hexadecimal, with their value. -/
theorem hexChar_spec {n : Nat} (digit : n < 16) :
    isWs (hexChar n) = false ∧ isHex (hexChar n) = true ∧ hexDigit (hexChar n) = n := by
  revert n
  decide

/-- An address in hexadecimal is a word of hexadecimal digits with that value. -/
theorem hexText_spec (a : Half) :
    (∀ x ∈ hexText a, isWs x = false) ∧ hexText a ≠ [] ∧ (hexText a).all isHex = true ∧ hexValue (hexText a) = a.toNat := by
  have bound := a.isLt
  have chars : ∀ {n : Nat}, n < 16 → isWs (hexChar n) = false ∧ isHex (hexChar n) = true ∧ hexDigit (hexChar n) = n :=
    hexChar_spec
  have d0 := chars (Nat.mod_lt a.toNat (by decide : 0 < 16))
  have d1 := chars (Nat.mod_lt (a.toNat / 16) (by decide : 0 < 16))
  have d2 := chars (Nat.mod_lt (a.toNat / 256) (by decide : 0 < 16))
  unfold hexText
  split_ifs with one two three
  · have top := chars one
    simp [hexValue, top]
  · have top := chars (show a.toNat / 16 < 16 by omega)
    simp [hexValue, top, d0]
    omega
  · have top := chars (show a.toNat / 256 < 16 by omega)
    simp [hexValue, top, d0, d1]
    omega
  · have top := chars (show a.toNat / 4096 < 16 by omega)
    simp [hexValue, top, d0, d1, d2]
    omega

/-- Decimal values, each followed by one 0x20, are one token each; what follows starts with no token open. -/
theorem tokensFrom_decList (bs : List Byte) (off : Nat) (more : List Byte) :
    ∃ ts off', tokensFrom off none (decList bs ++ more) = ts ++ tokensFrom off' none more ∧
      ts.map Token.bytes = bs.map decText := by
  induction bs generalizing off with
  | nil => exact ⟨[], off, rfl, rfl⟩
  | cons b bs ih =>
    obtain ⟨noWs, ne, -, -⟩ := decText_spec b
    obtain ⟨ts, off', found, texts⟩ := ih (off + (decText b).length + 1)
    refine ⟨{ bytes := decText b, start := off } :: ts, off', ?_, by rw [List.map_cons, texts, List.map_cons]⟩
    have space : isWs 32#8 = true := by decide
    calc tokensFrom off none (decList (b :: bs) ++ more)
        = tokensFrom off none (decText b ++ 0x20 :: (decList bs ++ more)) := by simp [decList]
      _ = { bytes := decText b, start := off } :: tokensFrom (off + (decText b).length + 1) none (decList bs ++ more) := by
        rw [tokensFrom_word_append noWs ne]
        simp [tokensFrom, space]
      _ = _ := by rw [found, List.cons_append]

/-- Tokens that spell bytes in decimal are byte values, those bytes. -/
theorem spelled_tokens {ts : List Token} {bs : List Byte} (texts : ts.map Token.bytes = bs.map decText) :
    firstBad 0 ts = none ∧ dataBytes ts = bs := by
  constructor
  · rw [firstBad_eq_none_iff]
    intro t listed
    obtain ⟨b, -, text⟩ := List.mem_map.mp (texts ▸ List.mem_map_of_mem listed : t.bytes ∈ bs.map decText)
    obtain ⟨-, -, digits, value⟩ := decText_spec b
    simp only [Token.isByteValue, ← text, digits, value, Bool.true_and, decide_eq_true_eq]
    omega
  · calc dataBytes ts = (ts.map Token.bytes).map (fun x => BitVec.ofNat 8 (decValue x)) := by simp [dataBytes]
      _ = bs.map (fun b => BitVec.ofNat 8 (decValue (decText b))) := by rw [texts, List.map_map]; rfl
      _ = bs.map id := List.map_congr_left fun b _ => by simp [(decText_spec b).2.2.2]
      _ = bs := List.map_id bs

/-! What the two parsers make of a body's tokens, the line's first characters being its link's. -/

theorem parseCmd_of_tokens {c : Config} {body : List Byte} {data : List Token} {d : Token}
    (found : tokens (cmdPfx ++ body) 5 = data ++ [d]) :
    parseCmd c (cmdPfx ++ body) =
      if data.length = 0 then .malformedCommand
      else if ¬ d.bytes.all isHex then .invalidAddress (sat16 data.length) (sat16 d.start)
      else if hexValue d.bytes > 0xFFFF ∧ c.addrPolicy = .reject then
        .invalidAddress (sat16 data.length) (sat16 d.start)
      else
        match firstBad 0 data with
        | some (k, t) => .invalidByteValue (sat16 k) (sat16 t.start)
        | none =>
          match data[c.lbufBytes]? with
          | some t => .payloadOverflow (BitVec.ofNat 16 c.lbufBytes) (sat16 t.start)
          | none => .ok (dataBytes data) (BitVec.ofNat 16 (hexValue d.bytes)) := by
  rw [parseCmd, if_neg (not_not.mpr (take_cmdPfx_append body)), found, List.getLast?_concat, List.dropLast_concat]
    <;> rfl

theorem parseReply_of_tokens {c : Config} {body : List Byte} {ts : List Token}
    (found : tokens (repPfx ++ body) 7 = ts) :
    parseReply c (repPfx ++ body) =
      match firstBad 0 ts with
      | some (k, t) => .invalidByteValue (sat16 k) (sat16 t.start)
      | none =>
        match ts[c.lbufBytes]? with
        | some t => .payloadOverflow (BitVec.ofNat 16 c.lbufBytes) (sat16 t.start)
        | none => .ok (dataBytes ts) := by
  rw [parseReply, if_neg (not_not.mpr (take_repPfx_append body)), found]
    <;> rfl

/-- Settles O4: one token for each byte, then the address; none is bad and none is one too many. -/
theorem canonicalCommandParses : Obligations.CanonicalCommandParses := by
  intro c payload a nonempty fits
  obtain ⟨noWs, ne, hex, value⟩ := hexText_spec a
  obtain ⟨data, off, found, texts⟩ := tokensFrom_decList payload 5 (hexText a ++ [])
  obtain ⟨noneBad, bytes⟩ := spelled_tokens texts
  have len : data.length = payload.length := by simpa using congrArg List.length texts
  rw [tokensFrom_word_append noWs ne, tokensFrom, Option.toList_some, List.append_nil] at found
  have found : tokens (cmdPfx ++ (decList payload ++ hexText a)) 5 = data ++ [{ bytes := hexText a, start := off }] := found
  have line : canonicalCmd payload a = cmdPfx ++ (decList payload ++ hexText a) := List.append_assoc ..
  have some_data : data.length ≠ 0 := by rwa [len, Ne, List.length_eq_zero_iff]
  have inRange : ¬ (hexValue (hexText a) > 0xFFFF ∧ c.addrPolicy = .reject) := by
    have := a.isLt
    omega
  rw [line, parseCmd_of_tokens found, if_neg some_data, if_neg (not_not.mpr hex), if_neg inRange, noneBad,
    List.getElem?_eq_none (len ▸ fits)]
  simp only [bytes, value, BitVec.ofNat_toNat, BitVec.setWidth_eq]

/-- Settles O5: one token for each byte; none is bad and none is one too many. -/
theorem spelledReplyParses : Obligations.SpelledReplyParses := by
  intro c bs fits
  obtain ⟨ts, off, found, texts⟩ := tokensFrom_decList bs 7 []
  obtain ⟨noneBad, bytes⟩ := spelled_tokens texts
  have len : ts.length = bs.length := by simpa using congrArg List.length texts
  rw [tokensFrom, Option.toList_none, List.append_nil, List.append_nil] at found
  have found : tokens (repPfx ++ decList bs) 7 = ts := found
  rw [canonicalReply, parseReply_of_tokens found, noneBad, List.getElem?_eq_none (len ▸ fits)]
  simp only [bytes]

end Sys2Proof.Machine
end

section
/-! PROOFS. 40_command_parser.md and 43_reply_parser.md: one byte step of either parser, said once for both (R132, R217), and a
whole line of byte steps (R142, R221). -/

namespace Sys2Proof.Machine

/-- What the two parsers' byte steps differ in: the link's first characters, how an open token is finished, and the outcome. -/
structure LineMode where
  pfx : List Byte
  closeRegs : Parser → Parser
  closeBuf : Parser → Memory → Memory
  eol : Parser → LineOutcome

/-- The body step common to both: R135 and the body phase of R217. -/
def LineMode.body (M : LineMode) (p : Parser) (m : Memory) (b : Byte) (cur : Half) : ByteStep :=
  if b = termByte ∨ isWs b = true then
    let closed := if p.inTok then M.closeRegs p else p
    let closedBuf := if p.inTok then M.closeBuf p m else m
    { p := closed, lbuf := closedBuf, out := if b = termByte then some (M.eol closed) else none }
  else { p := tokenByte p b cur, lbuf := m, out := none }

/-- The byte step of a mode. -/
def LineMode.step (M : LineMode) (p : Parser) (m : Memory) (b : Byte) : Except Fault ByteStep :=
  byteStep M.pfx M.body M.eol p m b

/-- Command mode (R132 to R140). -/
def cmdMode (c : Config) : LineMode where
  pfx := cmdPfx
  closeRegs := finishCmdRegs c
  closeBuf := finishCmdBuf c
  eol := eolCmd c

/-- Reply mode (R217 to R219). -/
def repMode (c : Config) : LineMode where
  pfx := repPfx
  closeRegs := finishReplyRegs c
  closeBuf := finishReplyBuf c
  eol := eolReply c

theorem cmdStep_eq (c : Config) : cmdStep c = (cmdMode c).step := rfl

theorem repStep_eq (c : Config) : repStep c = (repMode c).step := rfl

/-! What a line that still can be accepted has in LBUF (R139, R245). -/

/-- While no data byte overflowed, the index is inside LBUF; while none was bad either, the bytes before it have a value. -/
structure DataStored (c : Config) (p : Parser) (m : Memory) : Prop where
  fits : p.ovf = false → p.ndata.toNat ≤ c.lbufBytes
  stored : p.ovf = false → p.byteErr = false → ∀ k, k < p.ndata.toNat → (Store.read m k).isSome = true

theorem DataStored.init (c : Config) (m : Memory) : DataStored c Parser.init m where
  fits _ := Nat.zero_le _
  stored _ _ k before := absurd before (Nat.not_lt_zero k)

theorem DataStored.commit {c : Config} {p : Parser} {m : Memory} (stored : DataStored c p m) (t : TokenRec) :
    DataStored c (commitRegs c p t) (commitByte c p m t) := by
  have noOvf : (commitRegs c p t).ovf = false → p.ovf = false ∧ p.ndata.toNat < c.lbufBytes := by
    simp [commitRegs_eq]
  have noErr : (commitRegs c p t).byteErr = false → p.byteErr = false ∧ t.good = true := by
    simp [commitRegs_eq]
  have index : (commitRegs c p t).ndata.toNat ≤ p.ndata.toNat + 1 := by
    simp [commitRegs_eq]
  constructor
  · intro ovf
    obtain ⟨-, room⟩ := noOvf ovf
    omega
  · intro ovf err k before
    obtain ⟨clear, room⟩ := noOvf ovf
    obtain ⟨clean, good⟩ := noErr err
    by_cases same : k = p.ndata.toNat
    · rw [same, read_commitByte_same m good room]
      rfl
    · rw [read_commitByte_frame m (.inl same)]
      exact stored.stored clear clean k (by omega)

/-! What both modes' finishing of a token leaves. -/

/-- The facts about a mode that a byte step rests on: its first characters fit P.pfx_i, and finishing a token leaves the phase,
the offset and every byte of LBUF but the one at P.ndata, keeps LBUF canonical, and keeps `DataStored`. -/
structure LineMode.Lawful (c : Config) (M : LineMode) : Prop where
  pfxPos : 0 < M.pfx.length
  pfxLen : M.pfx.length ≤ 7
  phase : ∀ p, (M.closeRegs p).phase = p.phase
  off : ∀ p, (M.closeRegs p).off = p.off
  frame : ∀ p m k, k ≠ p.ndata.toNat ∨ c.lbufBytes ≤ k → Store.read (M.closeBuf p m) k = Store.read m k
  wf : ∀ p m, Store.wf m = true → Store.wf (M.closeBuf p m) = true
  stored : ∀ p m, DataStored c p m → DataStored c (M.closeRegs p) (M.closeBuf p m)

theorem read_commitByte_elsewhere {c : Config} {p : Parser} (m : Memory) (t : TokenRec) {k : Nat}
    (apart : k ≠ p.ndata.toNat ∨ c.lbufBytes ≤ k) : Store.read (commitByte c p m t) k = Store.read m k :=
  read_commitByte_frame m (apart.imp_right .inr)

theorem cmdMode_lawful (c : Config) : (cmdMode c).Lawful c where
  pfxPos := Nat.zero_lt_succ _
  pfxLen := Nat.le_of_ble_eq_true rfl
  phase p := by simp only [cmdMode, finishCmdRegs, commitRegs_eq]; split <;> rfl
  off p := by simp only [cmdMode, finishCmdRegs, commitRegs_eq]; split <;> rfl
  frame p m k apart := by
    simp only [cmdMode, finishCmdBuf]
    split
    · exact read_commitByte_elsewhere m p.q apart
    · rfl
  wf p m canonical := by
    simp only [cmdMode, finishCmdBuf]
    split
    · exact commitByte_wf c p m p.q canonical
    · exact canonical
  stored p m before := by
    simp only [cmdMode, finishCmdRegs, finishCmdBuf]
    split
    · have after := before.commit p.q
      exact ⟨after.fits, after.stored⟩
    · exact ⟨before.fits, before.stored⟩

theorem repMode_lawful (c : Config) : (repMode c).Lawful c where
  pfxPos := Nat.zero_lt_succ _
  pfxLen := Nat.le_of_ble_eq_true rfl
  phase p := by simp only [repMode, finishReplyRegs, commitRegs_eq]
  off p := by simp only [repMode, finishReplyRegs, commitRegs_eq]
  frame p m _ apart := read_commitByte_elsewhere m p.c apart
  wf p m canonical := commitByte_wf c p m p.c canonical
  stored p m before := by
    have after := before.commit p.c
    exact ⟨after.fits, after.stored⟩

/-! One byte step. -/

/-- P.phase is not the reserved code and, while the link's first characters are matched, the next one exists: when a byte step
answers (R105, R133). -/
structure LineMode.Ready (M : LineMode) (p : Parser) : Prop where
  phase : p.phase.toNat ≤ 2
  pfx : p.phase = phPfx → p.pfxI.toNat < M.pfx.length

/-- The three phases R101 gives a meaning. -/
theorem phase_cases {ph : BitVec 2} (legal : ph.toNat ≤ 2) : ph = phPfx ∨ ph = phBody ∨ ph = phSkip := by
  revert ph
  decide

section Step
variable {c : Config} {M : LineMode} {p : Parser} {m : Memory} {b : Byte} {r : ByteStep}

theorem LineMode.step_pfx_term (M : LineMode) (m : Memory) (matching : p.phase = phPfx) :
    M.step p m termByte = .ok { p := p.countByte, lbuf := m, out := some (M.eol p.countByte) } := by
  simp [LineMode.step, byteStep, matching]

theorem LineMode.step_pfx_byte (M : LineMode) (m : Memory) (matching : p.phase = phPfx)
    (before : p.pfxI.toNat < M.pfx.length) (notTerm : b ≠ termByte) :
    M.step p m b = .ok {
      p := if M.pfx[p.pfxI.toNat] = b then
          { p.countByte with
            pfxI := BitVec.ofNat 3 (p.pfxI.toNat + 1)
            phase := if p.pfxI.toNat + 1 = M.pfx.length then phBody else p.phase }
        else { p.countByte with phase := phSkip }
      lbuf := m, out := none } := by
  have want : M.pfx[p.countByte.pfxI.toNat]? = some M.pfx[p.pfxI.toNat] := List.getElem?_eq_getElem before
  rw [LineMode.step, byteStep, if_pos matching, if_neg notTerm, pfxStep, want]
  by_cases same : M.pfx[p.pfxI.toNat] = b
  · simp only [same, if_true]
    rfl
  · simp only [same, Ne.symm same, if_false]

theorem LineMode.step_body (M : LineMode) (m : Memory) (b : Byte) (inBody : p.phase = phBody) :
    M.step p m b = .ok (M.body p.countByte m b p.off) := by
  simp [LineMode.step, byteStep, inBody, phBody, phPfx]

theorem LineMode.step_skip (M : LineMode) (m : Memory) (b : Byte) (skipping : p.phase = phSkip) :
    M.step p m b =
      .ok { p := p.countByte, lbuf := m, out := if b = termByte then some (M.eol p.countByte) else none } := by
  simp [LineMode.step, byteStep, skipping, phBody, phPfx, phSkip]

theorem LineMode.Ready.step_answers (ready : M.Ready p) (m : Memory) (b : Byte) : ∃ r, M.step p m b = .ok r := by
  obtain matching | inBody | skipping := phase_cases ready.phase
  · by_cases term : b = termByte
    · exact ⟨_, term ▸ M.step_pfx_term m matching⟩
    · exact ⟨_, M.step_pfx_byte m matching (ready.pfx matching) term⟩
  · exact ⟨_, M.step_body m b inBody⟩
  · exact ⟨_, M.step_skip m b skipping⟩

/-- The body step ends the line exactly at the terminator, with the outcome of the registers it leaves (R135, R217). -/
theorem LineMode.body_out (M : LineMode) (p : Parser) (m : Memory) (b : Byte) (cur : Half) :
    (M.body p m b cur).out = if b = termByte then some (M.eol (M.body p m b cur).p) else none := by
  unfold LineMode.body
  by_cases term : b = termByte
  · simp [term]
  · by_cases ws : isWs b = true <;> simp [term, ws]

theorem LineMode.body_of_token_byte (M : LineMode) (p : Parser) (m : Memory) (cur : Half) (notTerm : b ≠ termByte)
    (notWs : ¬ isWs b = true) : M.body p m b cur = { p := tokenByte p b cur, lbuf := m, out := none } :=
  if_neg (not_or.mpr ⟨notTerm, notWs⟩)

/-- A fact about the registers and LBUF that finishing a token and taking one of its bytes keep, the body step keeps. -/
theorem LineMode.body_keeps {P : Parser → Memory → Prop} (M : LineMode) {p : Parser} {m : Memory} (b : Byte) (cur : Half)
    (now : P p m) (byte : P (tokenByte p b cur) m) (close : P (M.closeRegs p) (M.closeBuf p m)) :
    P (M.body p m b cur).p (M.body p m b cur).lbuf := by
  unfold LineMode.body
  split
  · cases p.inTok
    · exact now
    · exact close
  · exact byte

variable (lawful : M.Lawful c) (stepped : M.step p m b = .ok r)
include stepped

/-- A line ends exactly at its terminator, with the outcome of the registers the step leaves (R140, R219). -/
theorem LineMode.step_out : r.out = if b = termByte then some (M.eol r.p) else none := by
  obtain ⟨-, term, rfl⟩ | ⟨-, notTerm, q, -, rfl⟩ | ⟨-, rfl⟩ | ⟨-, rfl⟩ := byteStep_ok stepped
  · rw [if_pos term]
  · rw [if_neg notTerm]
  · exact M.body_out ..
  · rfl

include lawful

/-- `P.off` counts the byte, saturating (R132). -/
theorem LineMode.step_off : r.p.off = sat16 (p.off.toNat + 1) := by
  obtain ⟨-, -, rfl⟩ | ⟨-, -, q, matched, rfl⟩ | ⟨-, rfl⟩ | ⟨-, rfl⟩ := byteStep_ok stepped
  · rfl
  · obtain ⟨-, ⟨-, rfl⟩ | ⟨-, rfl⟩⟩ := pfxStep_ok matched <;> rfl
  · exact M.body_keeps (P := fun q _ => q.off = sat16 (p.off.toNat + 1)) b p.off rfl rfl (lawful.off _)
  · rfl

/-- At most the byte of LBUF at the index P.ndata is written. -/
theorem LineMode.step_lbuf_frame {k : Nat} (apart : k ≠ p.ndata.toNat ∨ c.lbufBytes ≤ k) :
    Store.read r.lbuf k = Store.read m k := by
  obtain ⟨-, -, rfl⟩ | ⟨-, -, q, -, rfl⟩ | ⟨-, rfl⟩ | ⟨-, rfl⟩ := byteStep_ok stepped
  · rfl
  · rfl
  · exact M.body_keeps (P := fun _ l => Store.read l k = Store.read m k) b p.off rfl rfl (lawful.frame _ m k apart)
  · rfl

theorem LineMode.step_lbuf_wf (canonical : Store.wf m = true) : Store.wf r.lbuf = true := by
  obtain ⟨-, -, rfl⟩ | ⟨-, -, q, -, rfl⟩ | ⟨-, rfl⟩ | ⟨-, rfl⟩ := byteStep_ok stepped
  · exact canonical
  · exact canonical
  · exact M.body_keeps (P := fun _ l => Store.wf l = true) b p.off canonical canonical (lawful.wf _ m canonical)
  · exact canonical

theorem LineMode.step_stored (before : DataStored c p m) : DataStored c r.p r.lbuf := by
  have counted : DataStored c p.countByte m := ⟨before.fits, before.stored⟩
  obtain ⟨-, -, rfl⟩ | ⟨-, -, q, matched, rfl⟩ | ⟨-, rfl⟩ | ⟨-, rfl⟩ := byteStep_ok stepped
  · exact counted
  · obtain ⟨-, ⟨-, rfl⟩ | ⟨-, rfl⟩⟩ := pfxStep_ok matched <;> exact ⟨before.fits, before.stored⟩
  · exact M.body_keeps (P := DataStored c) b p.off counted ⟨before.fits, before.stored⟩ (lawful.stored _ m counted)
  · exact counted

/-- A byte that does not end the line leaves registers from which the next byte step answers. -/
theorem LineMode.Ready.after_step (ready : M.Ready p) : r.p.phase.toNat ≤ 2 ∧ (b ≠ termByte → M.Ready r.p) := by
  suffices both : r.p.phase.toNat ≤ 2 ∧ (b ≠ termByte → r.p.phase = phPfx → r.p.pfxI.toNat < M.pfx.length) from
    ⟨both.1, fun notTerm => ⟨both.1, both.2 notTerm⟩⟩
  have bound := lawful.pfxLen
  obtain ⟨matching, term, rfl⟩ | ⟨matching, -, q, matched, rfl⟩ | ⟨inBody, rfl⟩ | ⟨skipping, rfl⟩ := byteStep_ok stepped
  · exact ⟨ready.phase, absurd term⟩
  · obtain ⟨before, ⟨-, rfl⟩ | ⟨-, rfl⟩⟩ := pfxStep_ok matched
    · have before : p.pfxI.toNat < M.pfx.length := before
      constructor
      · dsimp only
        split
        · decide
        · exact ready.phase
      · intro _ still
        dsimp only at still ⊢
        split at still
        · cases still
        next more =>
          have more : p.pfxI.toNat + 1 ≠ M.pfx.length := more
          show (BitVec.ofNat 3 (p.pfxI.toNat + 1)).toNat < M.pfx.length
          rw [BitVec.toNat_ofNat, Nat.mod_eq_of_lt (by omega)]
          omega
    · exact ⟨le_rfl, fun _ still => by cases still⟩
  · have inBody : (M.body p.countByte m b p.off).p.phase = phBody :=
      M.body_keeps (P := fun q _ => q.phase = phBody) b p.off inBody inBody ((lawful.phase _).trans inBody)
    rw [inBody]
    exact ⟨by decide, fun _ still => by cases still⟩
  · have skipping : p.countByte.phase = phSkip := skipping
    rw [skipping]
    exact ⟨by decide, fun _ still => by cases still⟩

end Step

/-! A run of byte steps. -/

theorem runBytes_append {f : Parser → Memory → Byte → Except Fault ByteStep} {p : Parser} {m : Memory} {xs ys : List Byte}
    {r : ByteStep} (first : runBytes f p m xs = .ok r) (more : ys ≠ []) :
    runBytes f p m (xs ++ ys) = runBytes f r.p r.lbuf ys := by
  obtain ⟨y, ys, rfl⟩ := List.exists_cons_of_ne_nil more
  induction xs generalizing p m with
  | nil => cases first; rfl
  | cons x xs ih =>
    cases xs with
    | nil => exact runBytes_cons first
    | cons x' xs =>
      rw [runBytes] at first
      split at first
      · cases first
      next step => exact (runBytes_cons step).trans (ih first)

theorem runBytes_cons_append {f : Parser → Memory → Byte → Except Fault ByteStep} {p : Parser} {m : Memory} {b : Byte}
    {xs ys : List Byte} {r : ByteStep} (first : f p m b = .ok r) (more : ys ≠ []) :
    runBytes f p m (b :: xs ++ ys) = runBytes f r.p r.lbuf (xs ++ ys) := by
  obtain ⟨y, ys, rfl⟩ := List.exists_cons_of_ne_nil more
  cases xs <;> exact runBytes_cons first

/-- Bytes without a terminator are taken one by one, and the line is not over (R142, R221). -/
theorem LineMode.Ready.run_answers {c : Config} {M : LineMode} (lawful : M.Lawful c) {p : Parser} (ready : M.Ready p)
    (m : Memory) {bs : List Byte} (wf : lineWf bs = true) :
    ∃ r, runBytes M.step p m bs = .ok r ∧ r.out = none ∧ M.Ready r.p := by
  induction bs generalizing p m with
  | nil => exact ⟨_, rfl, rfl, ready⟩
  | cons b bs ih =>
    obtain ⟨notTerm, wf⟩ := (lineWf_cons b bs).mp wf
    obtain ⟨r, stepped⟩ := ready.step_answers m b
    have next : M.Ready r.p := (ready.after_step lawful stepped).2 notTerm
    cases bs with
    | nil => exact ⟨r, stepped, by rw [LineMode.step_out stepped, if_neg notTerm], next⟩
    | cons b' bs =>
      obtain ⟨u, rest, facts⟩ := ih next r.lbuf wf
      exact ⟨u, (runBytes_cons stepped).trans rest, facts⟩

theorem LineMode.ready_init {c : Config} {M : LineMode} (lawful : M.Lawful c) : M.Ready Parser.init :=
  ⟨by decide, fun _ => lawful.pfxPos⟩

/-! A line that does not begin with its link's characters. -/

/-- The bytes from here on do not complete the link's first characters. -/
def LineMode.Misses (M : LineMode) (p : Parser) (bs : List Byte) : Prop :=
  p.phase = phSkip ∨
    (p.phase = phPfx ∧ p.pfxI.toNat < M.pfx.length ∧
      bs.take (M.pfx.length - p.pfxI.toNat) ≠ M.pfx.drop p.pfxI.toNat)

theorem LineMode.Misses.after_step {c : Config} {M : LineMode} (lawful : M.Lawful c) {p : Parser} {b : Byte} {bs : List Byte}
    (misses : M.Misses p (b :: bs)) (m : Memory) (notTerm : b ≠ termByte) :
    ∃ q, M.step p m b = .ok { p := q, lbuf := m, out := none } ∧ M.Misses q bs ∧
      q = { p with off := sat16 (p.off.toNat + 1), phase := q.phase, pfxI := q.pfxI } := by
  obtain skipping | ⟨matching, before, differ⟩ := misses
  · refine ⟨p.countByte, ?_, .inl skipping, rfl⟩
    rw [M.step_skip m b skipping, if_neg notTerm]
  · have bound := lawful.pfxLen
    by_cases same : M.pfx[p.pfxI.toNat] = b
    · have tail : bs.take (M.pfx.length - (p.pfxI.toNat + 1)) ≠ M.pfx.drop (p.pfxI.toNat + 1) := by
        intro eq
        apply differ
        rw [List.drop_eq_getElem_cons before, same, ← eq,
          show M.pfx.length - p.pfxI.toNat = M.pfx.length - (p.pfxI.toNat + 1) + 1 by omega, List.take_succ_cons]
      have more : p.pfxI.toNat + 1 ≠ M.pfx.length := by
        intro last
        rw [last, Nat.sub_self, List.take_zero, List.drop_length] at tail
        exact tail rfl
      have index : (BitVec.ofNat 3 (p.pfxI.toNat + 1)).toNat = p.pfxI.toNat + 1 := by
        rw [BitVec.toNat_ofNat, Nat.mod_eq_of_lt (by omega)]
      have stepped := M.step_pfx_byte m matching before notTerm
      rw [if_pos same, if_neg more] at stepped
      refine ⟨_, stepped, .inr ⟨matching, ?_, ?_⟩, rfl⟩
      · dsimp only
        omega
      · dsimp only
        rwa [index]
    · have stepped := M.step_pfx_byte m matching before notTerm
      rw [if_neg same] at stepped
      exact ⟨_, stepped, .inl rfl, rfl⟩

/-- Such a line only moves the offset, and ends outside the body phase. -/
theorem LineMode.Misses.run {c : Config} {M : LineMode} (lawful : M.Lawful c) {p : Parser} {bs : List Byte}
    (misses : M.Misses p bs) (m : Memory) (wf : lineWf bs = true) :
    ∃ q, runBytes M.step p m (bs ++ [termByte]) = .ok { p := q, lbuf := m, out := some (M.eol q) } ∧ q.phase ≠ phBody ∧
      q = { p with off := sat16 (p.off.toNat + (bs.length + 1)), phase := q.phase, pfxI := q.pfxI } := by
  induction bs generalizing p with
  | nil =>
    obtain skipping | ⟨matching, -, -⟩ := misses
    · refine ⟨p.countByte, ?_, (skipping ▸ by decide : p.phase ≠ phBody), rfl⟩
      exact (M.step_skip m termByte skipping).trans (by rw [if_pos rfl])
    · exact ⟨p.countByte, M.step_pfx_term m matching, (matching ▸ by decide : p.phase ≠ phBody), rfl⟩
  | cons b bs ih =>
    obtain ⟨notTerm, wf⟩ := (lineWf_cons b bs).mp wf
    obtain ⟨u, stepped, still, count⟩ := misses.after_step lawful m notTerm
    obtain ⟨q, ran, notBody, total⟩ := ih still wf
    refine ⟨q, (runBytes_cons_append stepped (List.cons_ne_nil _ _)).trans ran, notBody, ?_⟩
    have offset : sat16 (u.off.toNat + (bs.length + 1)) = sat16 (p.off.toNat + ((b :: bs).length + 1)) := by
      apply BitVec.eq_of_toNat_eq
      rw [count, sat16_toNat, sat16_toNat, sat16_toNat, List.length_cons]
      omega
    rw [total, offset, count]

/-! A line that does: its body, token by token. -/

/-- The token open in the registers. -/
def Parser.opens (p : Parser) : Option Token → Prop
  | none => p.inTok = false
  | some t => p.inTok = true ∧ p.c = t.record

/-- A relation between registers, LBUF and the tokens finished so far that a mode keeps: it does not look at the offset or the
open token, and finishing the open token adds it. -/
structure LineMode.Tracks (M : LineMode) (R : Parser → Memory → List Token → Prop) : Prop where
  count : ∀ {p m ts}, R p m ts → R p.countByte m ts
  byte : ∀ {p m ts} (b : Byte) (cur : Half), R p m ts → R (tokenByte p b cur) m ts
  close : ∀ {p m ts t}, R p m ts → p.c = t.record → R (M.closeRegs p) (M.closeBuf p m) (ts ++ [t])
  closed : ∀ p, (M.closeRegs p).inTok = false

/-- Where a run of the body stands: in the body phase at offset `off`, with the tokens `ts` finished and `cur` open. -/
structure LineMode.At (R : Parser → Memory → List Token → Prop) (p : Parser) (m : Memory) (ts : List Token)
    (cur : Option Token) (off : Nat) : Prop where
  phase : p.phase = phBody
  off : p.off = sat16 off
  opens : p.opens cur
  done : R p m ts

section Body
variable {c : Config} {M : LineMode} {R : Parser → Memory → List Token → Prop} (lawful : M.Lawful c) (tracks : M.Tracks R)
variable {p : Parser} {m : Memory} {ts : List Token} {cur : Option Token} {off : Nat}

theorem sat16_countByte (off : Nat) : sat16 ((sat16 off).toNat + 1) = sat16 (off + 1) := by
  apply BitVec.eq_of_toNat_eq
  simp only [sat16_toNat]
  omega

include tracks

theorem LineMode.At.count (here : LineMode.At R p m ts cur off) : LineMode.At R p.countByte m ts cur (off + 1) where
  phase := here.phase
  off := by rw [Parser.countByte, here.off, sat16_countByte]
  opens := by cases cur <;> exact here.opens
  done := tracks.count here.done

/-- A byte of a token: the record is the one R136 gives (first byte) or R137 (further bytes). -/
theorem LineMode.At.token_byte (here : LineMode.At R p m ts cur off) {b : Byte} (notTerm : b ≠ termByte)
    (notWs : ¬ isWs b = true) :
    ∃ r, M.step p m b = .ok r ∧ LineMode.At R r.p r.lbuf ts (some (Token.extend cur b off)) (off + 1) := by
  have counted := here.count tracks
  refine ⟨_, M.step_body m b here.phase, ?_⟩
  rw [M.body_of_token_byte _ _ _ notTerm notWs]
  refine ⟨counted.phase, counted.off, ⟨rfl, ?_⟩, tracks.byte b p.off counted.done⟩
  cases cur with
  | none =>
    have opened : p.countByte.inTok = false := here.opens
    simp only [tokenByte, opened, Bool.false_eq_true, if_false, Token.record_extend_none, here.off]
  | some t =>
    obtain ⟨opened, record⟩ := here.opens
    have opened : p.countByte.inTok = true := opened
    have record : p.countByte.c = t.record := record
    simp only [tokenByte, opened, if_true, Token.record_extend_some, record]

include lawful

/-- WS or the terminator: the open token is finished. -/
theorem LineMode.At.finish_token (here : LineMode.At R p m ts cur off) {b : Byte} (ends : b = termByte ∨ isWs b = true) :
    ∃ r, M.step p m b = .ok r ∧ LineMode.At R r.p r.lbuf (ts ++ cur.toList) none (off + 1) := by
  have counted := here.count tracks
  refine ⟨_, M.step_body m b here.phase, ?_⟩
  simp only [LineMode.body, ends, if_true]
  cases cur with
  | none =>
    have closed : p.countByte.inTok = false := here.opens
    simp only [closed, Bool.false_eq_true, if_false, Option.toList_none, List.append_nil]
    exact counted
  | some t =>
    obtain ⟨opened, record⟩ := counted.opens
    simp only [opened, if_true, Option.toList_some]
    exact ⟨(lawful.phase _).trans counted.phase, (lawful.off _).trans counted.off, tracks.closed _,
      tracks.close counted.done record⟩

/-- The body's byte steps finish exactly the body's tokens (R94), and the terminator ends the line. -/
theorem LineMode.At.run (here : LineMode.At R p m ts cur off) {bs : List Byte} (wf : lineWf bs = true) :
    ∃ r, runBytes M.step p m (bs ++ [termByte]) = .ok r ∧ r.out = some (M.eol r.p) ∧ r.p.phase = phBody ∧
      R r.p r.lbuf (ts ++ tokensFrom off cur bs) := by
  induction bs generalizing p m ts cur off with
  | nil =>
    obtain ⟨r, stepped, after⟩ := here.finish_token lawful tracks (.inl rfl)
    exact ⟨r, stepped, by rw [LineMode.step_out stepped, if_pos rfl], after.phase, after.done⟩
  | cons b bs ih =>
    obtain ⟨notTerm, wf⟩ := (lineWf_cons b bs).mp wf
    by_cases ws : isWs b = true
    · obtain ⟨r, stepped, after⟩ := here.finish_token lawful tracks (.inr ws)
      rw [runBytes_cons_append stepped (List.cons_ne_nil _ _), tokensFrom, if_pos ws, ← List.append_assoc]
      exact ih after wf
    · obtain ⟨r, stepped, after⟩ := here.token_byte tracks notTerm ws
      rw [runBytes_cons_append stepped (List.cons_ne_nil _ _), tokensFrom, if_neg ws]
      exact ih after wf

end Body

/-! The commit registers after the data tokens so far (R139). -/

/-- The registers and LBUF after the data tokens `data` were committed, from LBUF `before`. -/
structure Committed (c : Config) (before : Memory) (p : Parser) (m : Memory) (data : List Token) : Prop where
  ndata : p.ndata = sat16 data.length
  noneBad : firstBad 0 data = none → p.byteErr = false
  someBad : ∀ k t, firstBad 0 data = some (k, t) → p.byteErr = true ∧ p.byteIdx = sat16 k ∧ p.byteOff = sat16 t.start
  noneOver : data[c.lbufBytes]? = none → p.ovf = false
  someOver : ∀ t, data[c.lbufBytes]? = some t → p.ovf = true ∧ p.ovfOff = sat16 t.start
  stored : ∀ k t, data[k]? = some t → t.isByteValue = true → k < c.lbufBytes →
    Store.read m k = some (BitVec.ofNat 8 (decValue t.bytes))
  kept : ∀ k, data.length ≤ k → Store.read m k = Store.read before k

section Commit
variable {c : Config} {before : Memory} {p q : Parser} {m : Memory} {data : List Token}

theorem Committed.init (c : Config) (m : Memory) {p : Parser} (ndata : p.ndata = 0) (byteErr : p.byteErr = false)
    (ovf : p.ovf = false) : Committed c m p m [] where
  ndata := ndata
  noneBad _ := byteErr
  someBad _ _ found := by cases found
  noneOver _ := ovf
  someOver _ found := by cases found
  stored _ _ found := by cases found
  kept _ _ := rfl

/-- Only the commit's own registers matter. -/
theorem Committed.congr (done : Committed c before p m data) (ndata : q.ndata = p.ndata) (byteErr : q.byteErr = p.byteErr)
    (byteIdx : q.byteIdx = p.byteIdx) (byteOff : q.byteOff = p.byteOff) (ovf : q.ovf = p.ovf) (ovfOff : q.ovfOff = p.ovfOff) :
    Committed c before q m data where
  ndata := ndata.trans done.ndata
  noneBad clean := byteErr.trans (done.noneBad clean)
  someBad k t found := by rw [byteErr, byteIdx, byteOff]; exact done.someBad k t found
  noneOver fits := ovf.trans (done.noneOver fits)
  someOver t found := by rw [ovf, ovfOff]; exact done.someOver t found
  stored := done.stored
  kept := done.kept

/-- LBUF_BYTES is at most 65535 (R8), so P.ndata reaches it before it saturates. -/
theorem Committed.lbufBytes_le_iff (done : Committed c before p m data) (small : c.lbufBytes ≤ 65535) :
    c.lbufBytes ≤ p.ndata.toNat ↔ c.lbufBytes ≤ data.length := by
  rw [done.ndata, sat16_toNat]
  omega

/-- One more data token. -/
theorem Committed.commit (done : Committed c before p m data) (small : c.lbufBytes ≤ 65535) (t : Token) :
    Committed c before (commitRegs c p t.record) (commitByte c p m t.record) (data ++ [t]) := by
  have full := done.lbufBytes_le_iff small
  have index : p.ndata.toNat = min data.length 65535 := by rw [done.ndata, sat16_toNat]
  refine ⟨?_, ?_, ?_, ?_, ?_, ?_, ?_⟩
  · simp only [commitRegs_eq, done.ndata, sat16_countByte, List.length_append, List.length_singleton]
  · rw [firstBad_append_singleton]
    rcases found : firstBad 0 data with _ | kt
    · intro clean
      have good : t.isByteValue = true := by simpa using clean
      exact commitRegs_byteErr_of_good c t.record (done.noneBad found) (t.record_good.trans good)
    · simp
  · intro k u
    rw [firstBad_append_singleton]
    rcases found : firstBad 0 data with _ | ⟨k', u'⟩
    · intro bad
      have clear := done.noneBad found
      cases good : t.isByteValue with
      | true => simp [good] at bad
      | false =>
        obtain ⟨rfl, rfl⟩ : data.length = k ∧ t = u := by simpa [good] using bad
        rw [← done.ndata, ← t.record_start]
        exact commitRegs_byteErr_of_bad c t.record clear (t.record_good.trans good)
    · intro bad
      obtain ⟨rfl, rfl⟩ : k' = k ∧ u' = u := by simpa using bad
      obtain ⟨err, idx, offs⟩ := done.someBad _ _ found
      rw [← idx, ← offs]
      exact commitRegs_byteErr_sticks c t.record err
  · intro fits
    rw [List.getElem?_eq_none_iff, List.length_append, List.length_singleton] at fits
    refine commitRegs_ovf_of_lt t.record (done.noneOver (List.getElem?_eq_none (by omega))) ?_
    exact not_le.mp (mt full.mp (by omega))
  · intro u found
    obtain old | ⟨atEnd, rfl⟩ : data[c.lbufBytes]? = some u ∨ (c.lbufBytes = data.length ∧ t = u) := by
      rcases lt_trichotomy c.lbufBytes data.length with lt | eq | gt
      · rw [List.getElem?_append_left lt] at found
        exact .inl found
      · rw [eq, List.getElem?_concat_length, Option.some.injEq] at found
        exact .inr ⟨eq, found⟩
      · rw [List.getElem?_eq_none (by simp; omega)] at found
        cases found
    · obtain ⟨flagged, offs⟩ := done.someOver u old
      rw [← offs]
      exact commitRegs_ovf_sticks t.record flagged
    · rw [← t.record_start]
      exact commitRegs_ovf_of_le t.record (done.noneOver (List.getElem?_eq_none atEnd.ge)) (full.mpr atEnd.le)
  · intro k u found value room
    rcases lt_trichotomy k data.length with lt | rfl | gt
    · rw [List.getElem?_append_left lt] at found
      rw [read_commitByte_frame m (.inl (by omega))]
      exact done.stored k u found value room
    · rw [List.getElem?_concat_length, Option.some.injEq] at found
      subst found
      have here : p.ndata.toNat = data.length := by omega
      have written := read_commitByte_same m (t.record_good.trans value) (here ▸ room)
      rwa [here, Token.record_decVal value] at written
    · rw [List.getElem?_eq_none (by simp; omega)] at found
      cases found
  · intro k past
    rw [List.length_append, List.length_singleton] at past
    rw [← done.kept k (by omega)]
    exact read_commitByte_frame m (by omega)

end Commit

end Sys2Proof.Machine
end

section
/-! PROOFS. 40_command_parser.md: the two levels of the command parser agree (R142, R143), and the LINK-A lines (R120, R121). -/

namespace Sys2Proof.Machine

/-! The command mode's registers after some tokens (R138): the last one waits in P.Q, those before it are committed. -/

structure CmdTracked (c : Config) (before : Memory) (p : Parser) (m : Memory) (ts : List Token) : Prop where
  qValid : p.qValid = !ts.isEmpty
  last : ∀ t, ts.getLast? = some t → p.q = t.record
  ntok : p.ntok = sat16 ts.length
  data : Committed c before p m ts.dropLast

theorem CmdTracked.close {c : Config} {before : Memory} {p : Parser} {m : Memory} {ts : List Token} {t : Token}
    (small : c.lbufBytes ≤ 65535) (done : CmdTracked c before p m ts) (record : p.c = t.record) :
    CmdTracked c before (finishCmdRegs c p) (finishCmdBuf c p m) (ts ++ [t]) := by
  have count : sat16 (p.ntok.toNat + 1) = sat16 (ts ++ [t]).length := by
    rw [done.ntok, sat16_countByte, List.length_append, List.length_singleton]
  have last : ∀ u, (ts ++ [t]).getLast? = some u → p.c = u.record := by
    intro u found
    rw [List.getLast?_concat, Option.some.injEq] at found
    rw [record, found]
  have valid : true = !(ts ++ [t]).isEmpty := by simp
  have data := done.data
  obtain rfl | ⟨us, q, rfl⟩ := List.eq_nil_or_concat ts
  · have first : p.qValid = false := done.qValid
    simp only [finishCmdRegs, finishCmdBuf, first, Bool.false_eq_true, if_false]
    exact ⟨valid, last, count, data.congr rfl rfl rfl rfl rfl rfl⟩
  · rw [List.concat_eq_append] at *
    have more : p.qValid = true := by rw [done.qValid]; simp
    have waiting : p.q = q.record := done.last q List.getLast?_concat
    simp only [finishCmdRegs, finishCmdBuf, more, if_true]
    refine ⟨valid, last, count, ?_⟩
    rw [List.dropLast_concat] at data ⊢
    rw [waiting]
    exact (data.commit small q).congr rfl rfl rfl rfl rfl rfl

theorem cmdMode_tracks (c : Config) (before : Memory) (small : c.lbufBytes ≤ 65535) :
    (cmdMode c).Tracks (CmdTracked c before) where
  count done := ⟨done.qValid, done.last, done.ntok, done.data.congr rfl rfl rfl rfl rfl rfl⟩
  byte _ _ done := ⟨done.qValid, done.last, done.ntok, done.data.congr rfl rfl rfl rfl rfl rfl⟩
  close done record := done.close small record
  closed _ := rfl

/-! The outcome of those registers is `parse_cmd`'s (R125, R140). -/

theorem CmdTracked.eol {c : Config} {before : Memory} {p : Parser} {m : Memory} {body : List Byte}
    (small : c.lbufBytes ≤ 65535) (done : CmdTracked c before p m (tokens (cmdPfx ++ body) 5)) (inBody : p.phase = phBody) :
    eolCmd c p = (parseCmd c (cmdPfx ++ body)).outcome c := by
  generalize found : tokens (cmdPfx ++ body) 5 = ts at done
  rw [eolCmd, if_neg (not_not.mpr inBody), done.ntok, sat16_toNat]
  obtain rfl | ⟨data, d, rfl⟩ := List.eq_nil_or_concat ts
  · rw [if_pos (by decide), parseCmd, if_neg (not_not.mpr (take_cmdPfx_append body)), found]
    rfl
  rw [List.concat_eq_append] at *
  have waiting : p.q = d.record := done.last d List.getLast?_concat
  have committed := done.data
  rw [List.dropLast_concat] at committed
  rw [parseCmd_of_tokens found, waiting, d.record_hexOk, d.record_start, List.length_append, List.length_singleton]
  by_cases noData : data.length = 0
  · rw [if_pos (by omega), if_pos noData]
    rfl
  rw [if_neg (by omega), if_neg noData]
  by_cases hex : d.bytes.all isHex = true
  swap
  · rw [if_pos (.inl (Bool.eq_false_iff.mpr hex)), if_pos hex, committed.ndata]
    rfl
  simp only [hex, Bool.true_eq_false, false_or, not_true_eq_false, if_false, d.record_hexBig_iff hex]
  by_cases big : hexValue d.bytes > 0xFFFF ∧ c.addrPolicy = .reject
  · rw [if_pos big, if_pos big, committed.ndata]
    rfl
  rw [if_neg big, if_neg big]
  rcases bad : firstBad 0 data with _ | ⟨k, t⟩
  swap
  · obtain ⟨err, index, offset⟩ := committed.someBad k t bad
    rw [if_pos err, index, offset]
    rfl
  rw [if_neg (ne_true_of_eq_false (committed.noneBad bad))]
  rcases extra : data[c.lbufBytes]? with _ | t
  · have fits := List.getElem?_eq_none_iff.mp extra
    rw [if_neg (ne_true_of_eq_false (committed.noneOver extra)), committed.ndata, sat16_toNat, Nat.min_eq_left (by omega)]
    simp only [CmdResult.outcome, length_dataBytes]
  · obtain ⟨flagged, offset⟩ := committed.someOver t extra
    rw [if_pos flagged, offset]
    rfl

/-- What CMD_OK at the function level says of the tokens (R125). -/
theorem parseCmd_ok {c : Config} {content payload : List Byte} {a : Half} (ok : parseCmd c content = .ok payload a) :
    ∃ body data d, content = cmdPfx ++ body ∧ tokens content 5 = data ++ [d] ∧ data.length ≠ 0 ∧
      d.bytes.all isHex = true ∧ firstBad 0 data = none ∧ data.length ≤ c.lbufBytes ∧ payload = dataBytes data ∧
      a = BitVec.ofNat 16 (hexValue d.bytes) := by
  obtain ⟨body, rfl⟩ | other := dataLine_or_other content
  swap
  · rw [parseCmd, if_pos other] at ok
    cases ok
  generalize found : tokens (cmdPfx ++ body) 5 = ts
  obtain rfl | ⟨data, d, rfl⟩ := List.eq_nil_or_concat ts
  · rw [parseCmd, if_neg (not_not.mpr (take_cmdPfx_append body)), found] at ok
    cases ok
  rw [List.concat_eq_append] at *
  rw [parseCmd_of_tokens found] at ok
  split at ok
  · cases ok
  next someData =>
  split at ok
  · cases ok
  next hex =>
  split at ok
  · cases ok
  split at ok
  · cases ok
  next noneBad =>
  split at ok
  · cases ok
  next fits =>
  cases ok
  exact ⟨body, data, d, rfl, rfl, someData, not_not.mp hex, noneBad, List.getElem?_eq_none_iff.mp fits, rfl, rfl⟩

/-- Where every data token is a byte value that fits, LBUF holds those values. -/
theorem Committed.holds {c : Config} {before : Memory} {p : Parser} {m : Memory} {data : List Token}
    (done : Committed c before p m data) (noneBad : firstBad 0 data = none) (fits : data.length ≤ c.lbufBytes) :
    Sys2Proof.Machine.holds m (dataBytes data) := by
  intro k inside
  rw [length_dataBytes] at inside
  have value := (firstBad_eq_none_iff 0 data).mp noneBad _ (List.getElem_mem inside)
  rw [done.stored k _ (List.getElem?_eq_getElem inside) value (by omega), dataBytes, List.getElem?_map,
    List.getElem?_eq_getElem inside]
  rfl

/-! A whole LINK-A line (R142, R143). -/

/-- What the byte steps of the line `content` leave, from LBUF `m`. -/
structure ReadsCommand (c : Config) (m : Memory) (content : List Byte) (r : ByteStep) : Prop where
  run : runBytes (cmdStep c) Parser.init m (content ++ [termByte]) = .ok r
  out : r.out = some ((parseCmd c content).outcome c)
  kept : ∀ k, (tokens content 5).length - 1 ≤ k → Store.read r.lbuf k = Store.read m k
  accepted : ∀ payload a, parseCmd c content = .ok payload a →
    r.p.ndata = BitVec.ofNat 16 payload.length ∧ 1 ≤ payload.length ∧ payload.length ≤ c.lbufBytes ∧ r.p.q.hexVal = a ∧
      holds r.lbuf payload ∧ ∀ k, payload.length ≤ k → Store.read r.lbuf k = Store.read m k

/-- A line without the DATA characters: NOT_COMMAND, LBUF and the commit registers untouched (R121). -/
theorem runBytes_otherA (c : Config) (m : Memory) {content : List Byte} (wf : lineWf content = true)
    (other : content.take 5 ≠ cmdPfx) :
    ∃ q, runBytes (cmdStep c) Parser.init m (content ++ [termByte]) =
        .ok { p := q, lbuf := m, out := some { kind := kNotCommand, index := 0, offset := 0, count := 0 } } ∧
      q = { Parser.init with off := sat16 (content.length + 1), phase := q.phase, pfxI := q.pfxI } := by
  have misses : (cmdMode c).Misses Parser.init content := .inr ⟨rfl, (cmdMode_lawful c).pfxPos, other⟩
  obtain ⟨q, ran, notBody, regs⟩ := misses.run (cmdMode_lawful c) m wf
  have outcome : eolCmd c q = { kind := kNotCommand, index := 0, offset := 0, count := 0 } := if_pos notBody
  have offset : Parser.init.off.toNat + (content.length + 1) = content.length + 1 := Nat.zero_add _
  rw [offset] at regs
  exact ⟨q, ran.trans (by rw [← outcome]; rfl), regs⟩

/-- A DATA line: the registers hold the tokens of its body. -/
theorem runBytes_dataLine (c : Config) (small : c.lbufBytes ≤ 65535) (m : Memory) {body : List Byte}
    (wf : lineWf body = true) :
    ∃ r, runBytes (cmdStep c) Parser.init m (cmdPfx ++ body ++ [termByte]) = .ok r ∧ r.out = some (eolCmd c r.p) ∧
      r.p.phase = phBody ∧ CmdTracked c m r.p r.lbuf (tokens (cmdPfx ++ body) 5) := by
  let p : Parser := { Parser.init with phase := phBody, pfxI := 5, off := 5 }
  have first : runBytes (cmdStep c) Parser.init m cmdPfx = .ok { p := p, lbuf := m, out := none } := rfl
  have start : LineMode.At (CmdTracked c m) p m [] none 5 :=
    ⟨rfl, rfl, rfl, rfl, fun _ found => (nomatch found), rfl, Committed.init c m rfl rfl rfl⟩
  obtain ⟨r, ran, ended⟩ := start.run (cmdMode_lawful c) (cmdMode_tracks c m small) wf
  refine ⟨r, ?_, ended⟩
  rw [List.append_assoc, runBytes_append first (List.append_ne_nil_of_right_ne_nil _ (List.cons_ne_nil _ _))]
  exact ran

theorem readsCommand {c : Config} (legal : legalConfig c = true) (m : Memory) {content : List Byte}
    (wf : lineWf content = true) : ∃ r, ReadsCommand c m content r := by
  have small := ((legalConfig_iff c).mp legal).2.2.2.1
  obtain ⟨body, rfl⟩ | other := dataLine_or_other content
  · obtain ⟨r, ran, out, inBody, done⟩ := runBytes_dataLine c small m (lineWf_cmdPfx_append body ▸ wf)
    refine ⟨r, ran, out.trans (congrArg some (done.eol small inBody)), ?_, ?_⟩
    · intro k past
      exact done.data.kept k (by rwa [List.length_dropLast])
    · intro payload a ok
      obtain ⟨-, data, d, -, found, someData, hex, noneBad, fits, rfl, rfl⟩ := parseCmd_ok ok
      rw [found] at done
      have committed := done.data
      rw [List.dropLast_concat] at committed
      rw [length_dataBytes]
      refine ⟨?_, by omega, fits, ?_, committed.holds noneBad fits, committed.kept⟩
      · rw [committed.ndata, sat16, Nat.min_eq_left (by omega)]
      · rw [done.last d List.getLast?_concat, Token.record_hexVal hex]
  · obtain ⟨q, ran, -⟩ := runBytes_otherA c m wf other
    have result : parseCmd c content = .notCommand := if_pos other
    refine ⟨_, ran, by rw [result]; rfl, fun _ _ => rfl, ?_⟩
    intro payload a ok
    rw [result] at ok
    cases ok

/-- Settles O30: before the terminator every byte step answers and ends nothing; at it the registers hold the line's
tokens, so the outcome is the one `parse_cmd` gives them. -/
theorem commandParserLevelsAgree : Obligations.CommandParserLevelsAgree := by
  intro c m content legal wf
  constructor
  · rintro d ⟨rest, rfl⟩
    obtain ⟨r, ran, notOver, -⟩ :=
      (LineMode.ready_init (cmdMode_lawful c)).run_answers (cmdMode_lawful c) m ((lineWf_append d rest).mp wf).1
    exact ⟨r, ran, notOver⟩
  · obtain ⟨r, line⟩ := readsCommand legal m wf
    exact ⟨r, line.run, line.out⟩

/-- Settles O31, from the line's run. -/
theorem acceptedCommandIsInTheRegisters : Obligations.AcceptedCommandIsInTheRegisters := by
  intro c m content payload a legal wf ok
  obtain ⟨r, line⟩ := readsCommand legal m wf
  obtain ⟨ndata, nonempty, fits, addr, held, kept⟩ := line.accepted payload a ok
  have small := ((legalConfig_iff c).mp legal).2.2.2.1
  refine ⟨r, line.run, ?_, nonempty, fits, addr, held, kept⟩
  rw [ndata, toNat_half_of_le (by omega)]

/-! The line-level operations CMD_DATA (R120) and LINE_OTHER_A (R121). -/

/-- The code of R104 that stands for CMD_OK is reported of an accepted command only. -/
theorem CmdResult.outcome_kind_eq_iff (c : Config) (res : CmdResult) :
    (res.outcome c).kind = kCmdOk ↔ ∃ payload a, res = .ok payload a := by
  cases res with
  | ok payload a => exact iff_of_true rfl ⟨payload, a, rfl⟩
  | notCommand | malformedCommand | invalidAddress _ _ | invalidByteValue _ _ | payloadOverflow _ _ =>
    exact iff_of_false (by simp only [CmdResult.outcome]; decide) (by rintro ⟨_, _, same⟩; cases same)

theorem exec_cmdData_of_ok {s : State} {body payload : List Byte} {a : Half} {r : ByteStep}
    (line : ReadsCommand s.cfg s.lbuf (cmdPfx ++ body) r) (ok : parseCmd s.cfg (cmdPfx ++ body) = .ok payload a) :
    exec (.cmdData body) s = .next {
      (({ s with p := r.p, lbuf := r.lbuf }).report 0 ((parseCmd s.cfg (cmdPfx ++ body)).outcome s.cfg)).setSt stEnc with
      enc := { len := BitVec.ofNat 16 payload.length, addr := a, k := 0 } } := by
  simp only [exec, execCmdData, line.run, ok]

theorem exec_cmdData_of_not_ok {s : State} {body : List Byte} {r : ByteStep}
    (line : ReadsCommand s.cfg s.lbuf (cmdPfx ++ body) r)
    (notOk : ((parseCmd s.cfg (cmdPfx ++ body)).outcome s.cfg).kind ≠ kCmdOk) :
    exec (.cmdData body) s = .next (
      (({ s with p := r.p, lbuf := r.lbuf }).report 0 ((parseCmd s.cfg (cmdPfx ++ body)).outcome s.cfg)).setSt stPollQ) := by
  simp only [exec, execCmdData, line.run]
  cases res : parseCmd s.cfg (cmdPfx ++ body) with
  | ok payload a =>
    rw [res] at notOk
    exact absurd rfl notOk
  | notCommand | malformedCommand | invalidAddress _ _ | invalidByteValue _ _ | payloadOverflow _ _ => rfl

/-- Settles O33, by whether the outcome is CMD_OK. -/
theorem cmdDataReportsAndLoadsTheEncoder : Obligations.CmdDataReportsAndLoadsTheEncoder := by
  intro s body legal wf
  have small := ((legalConfig_iff s.cfg).mp legal).2.2.2.1
  obtain ⟨r, line⟩ := readsCommand (content := cmdPfx ++ body) legal s.lbuf wf
  by_cases isOk : ((parseCmd s.cfg (cmdPfx ++ body)).outcome s.cfg).kind = kCmdOk
  · obtain ⟨payload, a, ok⟩ := (CmdResult.outcome_kind_eq_iff _ _).mp isOk
    obtain ⟨ndata, nonempty, fits, addr, held, -⟩ := line.accepted payload a ok
    refine ⟨_, _, exec_cmdData_of_ok line ok, rfl, rfl, ?_, fun notOk => absurd isOk notOk, line.kept, rfl, rfl, rfl, rfl,
      rfl, rfl⟩
    intro payload' a' ok'
    obtain ⟨rfl, rfl⟩ := CmdResult.ok.inj (ok.symm.trans ok')
    exact ⟨rfl, toNat_half_of_le (by omega), rfl, rfl, held⟩
  · refine ⟨_, _, exec_cmdData_of_not_ok line isOk, rfl, rfl, ?_, fun _ => ⟨rfl, rfl⟩, line.kept, rfl, rfl, rfl, rfl, rfl, rfl⟩
    intro payload a ok
    exact absurd ((CmdResult.outcome_kind_eq_iff _ _).mpr ⟨payload, a, ok⟩) isOk

theorem exec_lineOtherA {s : State} {content : List Byte} (wf : lineWf content = true) (other : content.take 5 ≠ cmdPfx) :
    ∃ q, runBytes (cmdStep s.cfg) Parser.init s.lbuf (content ++ [termByte]) =
        .ok { p := q, lbuf := s.lbuf, out := some { kind := kNotCommand, index := 0, offset := 0, count := 0 } } ∧
      q = { Parser.init with off := sat16 (content.length + 1), phase := q.phase, pfxI := q.pfxI } ∧
      exec (.lineOtherA content) s = .next (
        (({ s with p := q }).report 0 { kind := kNotCommand, index := 0, offset := 0, count := 0 }).setSt stPollQ) := by
  obtain ⟨q, ran, regs⟩ := runBytes_otherA s.cfg s.lbuf wf other
  exact ⟨q, ran, regs, by simp only [exec, execLineOtherA, ran]⟩

/-- Settles O34. -/
theorem otherLineAOnlyReports : Obligations.OtherLineAOnlyReports := by
  intro s content wf other
  obtain ⟨q, -, regs, answers⟩ := exec_lineOtherA (s := s) wf other
  have off : q.off.toNat = min (content.length + 1) 65535 := by rw [regs, sat16_toNat]
  exact ⟨_, answers, rfl, off, by rw [regs]; rfl, by rw [regs]; rfl, by rw [regs]; rfl⟩

/-! The edge in S_RX_A (R246). -/

/-- The state after the terminator of a LINK-A line: the last byte step's registers and LBUF, and its outcome reported. -/
def State.endLineA (s : State) (r : ByteStep) (o : LineOutcome) : State :=
  if o.kind = kCmdOk then
    { (({ s with p := r.p, lbuf := r.lbuf }).report 0 o).setSt stEnc with
      enc := { len := r.p.ndata, addr := r.p.q.hexVal, k := 0 } }
  else (({ s with p := r.p, lbuf := r.lbuf }).report 0 o).setSt stPollQ

/-- A whole line taken in one step ends as its terminator's edge does (R120, R121; log 11). -/
theorem exec_lineInstrA {s : State} {content : List Byte} (legal : legalConfig s.cfg = true) (wf : lineWf content = true) :
    ∃ r, ReadsCommand s.cfg s.lbuf content r ∧
      exec (lineInstrA content) s = .next (s.endLineA r ((parseCmd s.cfg content).outcome s.cfg)) := by
  obtain ⟨r, line⟩ := readsCommand legal s.lbuf wf
  refine ⟨r, line, ?_⟩
  obtain ⟨body, rfl⟩ | other := dataLine_or_other content
  · rw [lineInstrA_of_data, State.endLineA]
    split
    next isOk =>
      obtain ⟨payload, a, ok⟩ := (CmdResult.outcome_kind_eq_iff _ _).mp isOk
      obtain ⟨ndata, -, -, addr, -⟩ := line.accepted payload a ok
      rw [exec_cmdData_of_ok line ok, ndata, addr]
    next notOk => exact exec_cmdData_of_not_ok line notOk
  · obtain ⟨q, ran, -, answers⟩ := exec_lineOtherA (s := s) wf other
    have result : parseCmd s.cfg content = .notCommand := if_pos other
    obtain rfl := Except.ok.inj (line.run.symm.trans ran)
    rw [lineInstrA_of_other other, answers, result]
    rfl

theorem exec_sRxA_of_no_byte {s : State} (idle : s.pins.aRxValid = false) : exec .sRxA s = .next s := by
  simp only [exec, execSRxA, idle]

section RxA
variable {s : State} {r : ByteStep} (offered : s.pins.aRxValid = true)
  (stepped : cmdStep s.cfg s.p s.lbuf s.pins.aRxData = .ok r)
include offered stepped

theorem exec_sRxA_of_byte (notOver : r.out = none) : exec .sRxA s = .next { s with p := r.p, lbuf := r.lbuf } := by
  simp only [exec, execSRxA, offered, stepped, notOver]

theorem exec_sRxA_of_end {o : LineOutcome} (ended : r.out = some o) :
    exec .sRxA s = .next (s.endLineA r o) := by
  simp only [exec, execSRxA, offered, stepped, ended, State.endLineA]

end RxA

/-- Settles O19: the byte step answers; what it writes and when it ends the line is the same in both modes. -/
theorem rxATakesOneByte : Obligations.RxATakesOneByte := by
  refine ⟨rfl, fun s phase pfx => ⟨exec_sRxA_of_no_byte, fun offered => ?_⟩⟩
  have lawful := cmdMode_lawful s.cfg
  have ready : (cmdMode s.cfg).Ready s.p := ⟨phase, pfx⟩
  obtain ⟨r, stepped⟩ := ready.step_answers s.lbuf s.pins.aRxData
  have out := LineMode.step_out stepped
  have off : r.p.off.toNat = min (s.p.off.toNat + 1) 65535 := by
    rw [LineMode.step_off lawful stepped, sat16_toNat]
  have frame {k : Nat} := LineMode.step_lbuf_frame (k := k) lawful stepped
  by_cases term : s.pins.aRxData = termByte
  · rw [if_pos term] at out
    refine ⟨_, exec_sRxA_of_end offered stepped out, ?_⟩
    unfold State.endLineA
    split
    next ok =>
      exact ⟨off, fun other => absurd term other,
        fun _ => ⟨rfl, rfl, fun _ => ⟨rfl, rfl⟩, fun notOk => absurd ok notOk⟩,
        fun k => frame, rfl, rfl, rfl, rfl, rfl, rfl⟩
    next notOk =>
      exact ⟨off, fun other => absurd term other,
        fun _ => ⟨rfl, rfl, fun ok => absurd ok notOk, fun _ => ⟨rfl, rfl⟩⟩,
        fun k => frame, rfl, rfl, rfl, rfl, rfl, rfl⟩
  · rw [if_neg term] at out
    exact ⟨_, exec_sRxA_of_byte offered stepped out, off, fun _ => ⟨rfl, rfl, rfl⟩, fun same => absurd same term,
      fun k => frame, rfl, rfl, rfl, rfl, rfl, rfl⟩

end Sys2Proof.Machine
end

section
/-! PROOFS. 43_reply_parser.md: the two levels of the reply parser agree (R221), and the LINK-B lines (R210, R211). -/

namespace Sys2Proof.Machine

/-! The reply mode's registers after some tokens (R218): all of them are committed, and P.Q is never used. -/

structure RepTracked (c : Config) (before : Memory) (p : Parser) (m : Memory) (ts : List Token) : Prop where
  qValid : p.qValid = false
  data : Committed c before p m ts

theorem repMode_tracks (c : Config) (before : Memory) (small : c.lbufBytes ≤ 65535) :
    (repMode c).Tracks (RepTracked c before) where
  count done := ⟨done.qValid, done.data.congr rfl rfl rfl rfl rfl rfl⟩
  byte _ _ done := ⟨done.qValid, done.data.congr rfl rfl rfl rfl rfl rfl⟩
  close {p m ts t} done record := by
    have committed := done.data.commit small t
    simp only [repMode, finishReplyRegs, finishReplyBuf, record]
    refine ⟨?_, committed.congr rfl rfl rfl rfl rfl rfl⟩
    rw [commitRegs_eq]
    exact done.qValid
  closed _ := rfl

/-! The outcome of those registers is `parse_reply`'s (R212, R219). -/

theorem RepTracked.eol {c : Config} {before : Memory} {p : Parser} {m : Memory} {body : List Byte}
    (small : c.lbufBytes ≤ 65535) (done : RepTracked c before p m (tokens (repPfx ++ body) 7)) (inBody : p.phase = phBody) :
    eolReply c p = (parseReply c (repPfx ++ body)).outcome := by
  have committed := done.data
  generalize found : tokens (repPfx ++ body) 7 = ts at committed
  rw [eolReply, if_neg (not_not.mpr inBody), parseReply_of_tokens found]
  rcases bad : firstBad 0 ts with _ | ⟨k, t⟩
  swap
  · obtain ⟨err, index, offset⟩ := committed.someBad k t bad
    rw [if_pos err, index, offset]
    rfl
  rw [if_neg (ne_true_of_eq_false (committed.noneBad bad))]
  rcases extra : ts[c.lbufBytes]? with _ | t
  · have fits := List.getElem?_eq_none_iff.mp extra
    rw [if_neg (ne_true_of_eq_false (committed.noneOver extra)), committed.ndata, sat16, Nat.min_eq_left (by omega)]
    simp only [ReplyResult.outcome, length_dataBytes]
  · obtain ⟨flagged, offset⟩ := committed.someOver t extra
    rw [if_pos flagged, offset]
    rfl

/-- What REPLY_OK at the function level says of the tokens (R212). -/
theorem parseReply_ok {c : Config} {content bs : List Byte} (ok : parseReply c content = .ok bs) :
    ∃ body, content = repPfx ++ body ∧ firstBad 0 (tokens content 7) = none ∧
      (tokens content 7).length ≤ c.lbufBytes ∧ bs = dataBytes (tokens content 7) := by
  obtain ⟨body, rfl⟩ | other := returnLine_or_other content
  swap
  · rw [parseReply, if_pos other] at ok
    cases ok
  rw [parseReply_of_tokens rfl] at ok
  split at ok
  · cases ok
  next noneBad =>
  split at ok
  · cases ok
  next fits =>
  cases ok
  exact ⟨body, rfl, noneBad, List.getElem?_eq_none_iff.mp fits, rfl⟩

/-! A whole LINK-B line (R221). -/

/-- What the byte steps of the line `content` leave, from LBUF `m`. -/
structure ReadsReply (c : Config) (m : Memory) (content : List Byte) (r : ByteStep) : Prop where
  run : runBytes (repStep c) Parser.init m (content ++ [termByte]) = .ok r
  out : r.out = some (parseReply c content).outcome
  qValid : r.p.qValid = false
  kept : ∀ k, (tokens content 7).length ≤ k → Store.read r.lbuf k = Store.read m k
  accepted : ∀ bs, parseReply c content = .ok bs →
    r.p.ndata = BitVec.ofNat 16 bs.length ∧ bs.length ≤ c.lbufBytes ∧ holds r.lbuf bs ∧
      ∀ k, bs.length ≤ k → Store.read r.lbuf k = Store.read m k

/-- A line without the RETURN characters: NOT_REPLY, LBUF and the commit registers untouched (R211). -/
theorem runBytes_otherB (c : Config) (m : Memory) {content : List Byte} (wf : lineWf content = true)
    (other : content.take 7 ≠ repPfx) :
    ∃ q, runBytes (repStep c) Parser.init m (content ++ [termByte]) =
        .ok { p := q, lbuf := m, out := some { kind := kNotReply, index := 0, offset := 0, count := 0 } } ∧
      q = { Parser.init with off := sat16 (content.length + 1), phase := q.phase, pfxI := q.pfxI } := by
  have misses : (repMode c).Misses Parser.init content := .inr ⟨rfl, (repMode_lawful c).pfxPos, other⟩
  obtain ⟨q, ran, notBody, regs⟩ := misses.run (repMode_lawful c) m wf
  have outcome : eolReply c q = { kind := kNotReply, index := 0, offset := 0, count := 0 } := if_pos notBody
  have offset : Parser.init.off.toNat + (content.length + 1) = content.length + 1 := Nat.zero_add _
  rw [offset] at regs
  exact ⟨q, ran.trans (by rw [← outcome]; rfl), regs⟩

/-- A RETURN line: the registers hold the tokens of its body. -/
theorem runBytes_returnLine (c : Config) (small : c.lbufBytes ≤ 65535) (m : Memory) {body : List Byte}
    (wf : lineWf body = true) :
    ∃ r, runBytes (repStep c) Parser.init m (repPfx ++ body ++ [termByte]) = .ok r ∧ r.out = some (eolReply c r.p) ∧
      r.p.phase = phBody ∧ RepTracked c m r.p r.lbuf (tokens (repPfx ++ body) 7) := by
  let p : Parser := { Parser.init with phase := phBody, pfxI := 7, off := 7 }
  have first : runBytes (repStep c) Parser.init m repPfx = .ok { p := p, lbuf := m, out := none } := rfl
  have start : LineMode.At (RepTracked c m) p m [] none 7 := ⟨rfl, rfl, rfl, rfl, Committed.init c m rfl rfl rfl⟩
  obtain ⟨r, ran, ended⟩ := start.run (repMode_lawful c) (repMode_tracks c m small) wf
  refine ⟨r, ?_, ended⟩
  rw [List.append_assoc, runBytes_append first (List.append_ne_nil_of_right_ne_nil _ (List.cons_ne_nil _ _))]
  exact ran

theorem readsReply {c : Config} (legal : legalConfig c = true) (m : Memory) {content : List Byte}
    (wf : lineWf content = true) : ∃ r, ReadsReply c m content r := by
  have small := ((legalConfig_iff c).mp legal).2.2.2.1
  obtain ⟨body, rfl⟩ | other := returnLine_or_other content
  · obtain ⟨r, ran, out, inBody, done⟩ := runBytes_returnLine c small m (lineWf_repPfx_append body ▸ wf)
    refine ⟨r, ran, out.trans (congrArg some (done.eol small inBody)), done.qValid, done.data.kept, ?_⟩
    intro bs ok
    obtain ⟨-, -, noneBad, fits, rfl⟩ := parseReply_ok ok
    rw [length_dataBytes]
    refine ⟨?_, fits, done.data.holds noneBad fits, done.data.kept⟩
    rw [done.data.ndata, sat16, Nat.min_eq_left (by omega)]
  · obtain ⟨q, ran, regs⟩ := runBytes_otherB c m wf other
    have result : parseReply c content = .notReply := if_pos other
    refine ⟨_, ran, by rw [result]; rfl, by rw [regs]; rfl, fun _ _ => rfl, ?_⟩
    intro bs ok
    rw [result] at ok
    cases ok

/-- Settles O32: before the terminator every byte step answers and ends nothing; at it the registers and LBUF hold the line's
tokens, so the outcome is the one `parse_reply` gives them. -/
theorem replyParserLevelsAgree : Obligations.ReplyParserLevelsAgree := by
  intro c m content legal wf
  have small := ((legalConfig_iff c).mp legal).2.2.2.1
  constructor
  · rintro d ⟨rest, rfl⟩
    obtain ⟨r, ran, notOver, -⟩ :=
      (LineMode.ready_init (repMode_lawful c)).run_answers (repMode_lawful c) m ((lineWf_append d rest).mp wf).1
    exact ⟨r, ran, notOver⟩
  · obtain ⟨r, line⟩ := readsReply legal m wf
    refine ⟨r, line.run, line.out, line.qValid, fun bs ok => ?_⟩
    obtain ⟨ndata, fits, held, kept⟩ := line.accepted bs ok
    refine ⟨?_, fits, held, kept⟩
    rw [ndata, toNat_half_of_le (by omega)]

/-! The line-level operations REPLY_RETURN (R210) and LINE_OTHER_B (R211). -/

/-- The code of R104 that stands for REPLY_OK is reported of an accepted reply only. -/
theorem ReplyResult.outcome_kind_eq_iff (res : ReplyResult) : res.outcome.kind = kReplyOk ↔ ∃ bs, res = .ok bs := by
  cases res with
  | ok bs => exact iff_of_true rfl ⟨bs, rfl⟩
  | notReply | invalidByteValue _ _ | payloadOverflow _ _ =>
    exact iff_of_false (by simp only [ReplyResult.outcome]; decide) (by rintro ⟨_, same⟩; cases same)

theorem exec_replyReturn_of_ok {s : State} {body bs : List Byte} {r : ByteStep}
    (line : ReadsReply s.cfg s.lbuf (repPfx ++ body) r) (ok : parseReply s.cfg (repPfx ++ body) = .ok bs) :
    exec (.replyReturn body) s = .next {
      (({ s with p := r.p, lbuf := r.lbuf }).report 1 (parseReply s.cfg (repPfx ++ body)).outcome).setSt stTxA with
      tx := { s.tx with len := BitVec.ofNat 16 bs.length, idx := 0 } } := by
  simp only [exec, execReplyReturn, line.run, ok]

theorem exec_replyReturn_of_not_ok {s : State} {body : List Byte} {r : ByteStep}
    (line : ReadsReply s.cfg s.lbuf (repPfx ++ body) r)
    (notOk : (parseReply s.cfg (repPfx ++ body)).outcome.kind ≠ kReplyOk) :
    exec (.replyReturn body) s = .next (
      (({ s with p := r.p, lbuf := r.lbuf }).report 1 (parseReply s.cfg (repPfx ++ body)).outcome).setSt stPollA) := by
  simp only [exec, execReplyReturn, line.run]
  cases res : parseReply s.cfg (repPfx ++ body) with
  | ok bs =>
    rw [res] at notOk
    exact absurd rfl notOk
  | notReply | invalidByteValue _ _ | payloadOverflow _ _ => rfl

/-- Settles O35, by whether the outcome is REPLY_OK. -/
theorem replyReturnReportsAndLoadsTransmit : Obligations.ReplyReturnReportsAndLoadsTransmit := by
  intro s body legal wf
  have small := ((legalConfig_iff s.cfg).mp legal).2.2.2.1
  obtain ⟨r, line⟩ := readsReply (content := repPfx ++ body) legal s.lbuf wf
  by_cases isOk : (parseReply s.cfg (repPfx ++ body)).outcome.kind = kReplyOk
  · obtain ⟨bs, ok⟩ := (ReplyResult.outcome_kind_eq_iff _).mp isOk
    obtain ⟨ndata, fits, held, -⟩ := line.accepted bs ok
    refine ⟨_, _, exec_replyReturn_of_ok line ok, rfl, rfl, ?_, fun notOk => absurd isOk notOk, line.kept, rfl, rfl, rfl,
      rfl, rfl, rfl⟩
    intro bs' ok'
    obtain rfl := ReplyResult.ok.inj (ok.symm.trans ok')
    exact ⟨rfl, toNat_half_of_le (by omega), rfl, rfl, held⟩
  · refine ⟨_, _, exec_replyReturn_of_not_ok line isOk, rfl, rfl, ?_, fun _ => ⟨rfl, rfl⟩, line.kept, rfl, rfl, rfl, rfl,
      rfl, rfl⟩
    intro bs ok
    exact absurd ((ReplyResult.outcome_kind_eq_iff _).mpr ⟨bs, ok⟩) isOk

theorem exec_lineOtherB {s : State} {content : List Byte} (wf : lineWf content = true) (other : content.take 7 ≠ repPfx) :
    ∃ q, runBytes (repStep s.cfg) Parser.init s.lbuf (content ++ [termByte]) =
        .ok { p := q, lbuf := s.lbuf, out := some { kind := kNotReply, index := 0, offset := 0, count := 0 } } ∧
      q = { Parser.init with off := sat16 (content.length + 1), phase := q.phase, pfxI := q.pfxI } ∧
      exec (.lineOtherB content) s = .next (
        (({ s with p := q }).report 1 { kind := kNotReply, index := 0, offset := 0, count := 0 }).setSt stPollA) := by
  obtain ⟨q, ran, regs⟩ := runBytes_otherB s.cfg s.lbuf wf other
  exact ⟨q, ran, regs, by simp only [exec, execLineOtherB, ran]⟩

/-- Settles O36. -/
theorem otherLineBOnlyReports : Obligations.OtherLineBOnlyReports := by
  intro s content wf other
  obtain ⟨q, -, regs, answers⟩ := exec_lineOtherB (s := s) wf other
  have off : q.off.toNat = min (content.length + 1) 65535 := by rw [regs, sat16_toNat]
  exact ⟨_, answers, rfl, off, by rw [regs]; rfl, by rw [regs]; rfl, by rw [regs]; rfl⟩

/-! The edge in S_RX_B (R252). -/

/-- The state after the terminator of a LINK-B line: the last byte step's registers and LBUF, and its outcome reported. -/
def State.endLineB (s : State) (r : ByteStep) (o : LineOutcome) : State :=
  if o.kind = kReplyOk then
    { (({ s with p := r.p, lbuf := r.lbuf }).report 1 o).setSt stTxA with
      tx := { s.tx with len := r.p.ndata, idx := 0 } }
  else (({ s with p := r.p, lbuf := r.lbuf }).report 1 o).setSt stPollA

/-- A whole line taken in one step ends as its terminator's edge does (R210, R211; log 11). -/
theorem exec_lineInstrB {s : State} {content : List Byte} (legal : legalConfig s.cfg = true) (wf : lineWf content = true) :
    ∃ r, ReadsReply s.cfg s.lbuf content r ∧
      exec (lineInstrB content) s = .next (s.endLineB r (parseReply s.cfg content).outcome) := by
  obtain ⟨r, line⟩ := readsReply legal s.lbuf wf
  refine ⟨r, line, ?_⟩
  obtain ⟨body, rfl⟩ | other := returnLine_or_other content
  · rw [lineInstrB_of_return, State.endLineB]
    split
    next isOk =>
      obtain ⟨bs, ok⟩ := (ReplyResult.outcome_kind_eq_iff _).mp isOk
      obtain ⟨ndata, -⟩ := line.accepted bs ok
      rw [exec_replyReturn_of_ok line ok, ndata]
    next notOk => exact exec_replyReturn_of_not_ok line notOk
  · obtain ⟨q, ran, -, answers⟩ := exec_lineOtherB (s := s) wf other
    have result : parseReply s.cfg content = .notReply := if_pos other
    obtain rfl := Except.ok.inj (line.run.symm.trans ran)
    rw [lineInstrB_of_other other, answers, result]
    rfl

theorem exec_sRxB_of_no_byte {s : State} (idle : s.pins.bRxValid = false) : exec .sRxB s = .next s := by
  simp only [exec, execSRxB, idle]

section RxB
variable {s : State} {r : ByteStep} (offered : s.pins.bRxValid = true)
  (stepped : repStep s.cfg s.p s.lbuf s.pins.bRxData = .ok r)
include offered stepped

theorem exec_sRxB_of_byte (notOver : r.out = none) : exec .sRxB s = .next { s with p := r.p, lbuf := r.lbuf } := by
  simp only [exec, execSRxB, offered, stepped, notOver]

theorem exec_sRxB_of_end {o : LineOutcome} (ended : r.out = some o) :
    exec .sRxB s = .next (s.endLineB r o) := by
  simp only [exec, execSRxB, offered, stepped, ended, State.endLineB]

end RxB

/-- Settles O20: the byte step answers; what it writes and when it ends the line is the same in both modes. -/
theorem rxBTakesOneByte : Obligations.RxBTakesOneByte := by
  refine ⟨rfl, fun s phase pfx => ⟨exec_sRxB_of_no_byte, fun offered => ?_⟩⟩
  have lawful := repMode_lawful s.cfg
  have ready : (repMode s.cfg).Ready s.p := ⟨phase, pfx⟩
  obtain ⟨r, stepped⟩ := ready.step_answers s.lbuf s.pins.bRxData
  have out := LineMode.step_out stepped
  have off : r.p.off.toNat = min (s.p.off.toNat + 1) 65535 := by
    rw [LineMode.step_off lawful stepped, sat16_toNat]
  have frame {k : Nat} := LineMode.step_lbuf_frame (k := k) lawful stepped
  by_cases term : s.pins.bRxData = termByte
  · rw [if_pos term] at out
    refine ⟨_, exec_sRxB_of_end offered stepped out, ?_⟩
    unfold State.endLineB
    split
    next ok =>
      exact ⟨off, fun other => absurd term other,
        fun _ => ⟨rfl, rfl, fun _ => ⟨rfl, rfl⟩, fun notOk => absurd ok notOk⟩,
        fun k => frame, rfl, rfl, rfl, rfl, rfl, rfl⟩
    next notOk =>
      exact ⟨off, fun other => absurd term other,
        fun _ => ⟨rfl, rfl, fun ok => absurd ok notOk, fun _ => ⟨rfl, rfl⟩⟩,
        fun k => frame, rfl, rfl, rfl, rfl, rfl, rfl⟩
  · rw [if_neg term] at out
    exact ⟨_, exec_sRxB_of_byte offered stepped out, off, fun _ => ⟨rfl, rfl, rfl⟩, fun same => absurd same term,
      fun k => frame, rfl, rfl, rfl, rfl, rfl, rfl⟩

end Sys2Proof.Machine
end

section
/-! PROOFS. 41_frame_encoder.md: how many frames there are (R173), how long each is (R174 to R176), and that they decode back
(R178). -/

namespace Sys2Proof.Machine

/-- PCAP is at least 1 (R7, R8). -/
theorem pcap_pos {c : Config} (legal : legalConfig c = true) : 0 < pcap c := by
  have chunk := ((legalConfig_iff c).mp legal).1
  rw [pcap]
  omega

theorem chunkSize_eq {c : Config} (legal : legalConfig c = true) : c.chunkSize = pcap c + 2 := by
  have chunk := ((legalConfig_iff c).mp legal).1
  rw [pcap]
  omega

theorem nframes_zero (c : Config) : nframes c 0 = 1 := rfl

/-- The ceiling, said without division (R173). -/
theorem nframes_bounds {c : Config} (legal : legalConfig c = true) {n : Nat} (nonempty : n ≠ 0) :
    (nframes c n - 1) * pcap c < n ∧ n ≤ nframes c n * pcap c := by
  have pos := pcap_pos legal
  rw [nframes, if_neg nonempty, ceilDiv]
  have below := Nat.div_mul_le_self (n + pcap c - 1) (pcap c)
  have above := Nat.lt_div_mul_add (a := n + pcap c - 1) pos
  rw [Nat.sub_mul, Nat.one_mul]
  omega

theorem nframes_pos {c : Config} (legal : legalConfig c = true) (n : Nat) : 1 ≤ nframes c n := by
  by_cases empty : n = 0
  · rw [empty, nframes_zero]
  · have enough := (nframes_bounds legal empty).2
    rw [Nat.one_le_iff_ne_zero]
    intro none
    rw [none, Nat.zero_mul] at enough
    omega

/-- A payload that fits LBUF gives at most N_MAX frames (R7, R173). -/
theorem nframes_le_nMax {c : Config} {n : Nat} (fits : n ≤ c.lbufBytes) : nframes c n ≤ nMax c := by
  rw [nframes, nMax]
  split
  · exact le_max_left ..
  · exact (Nat.div_le_div_right (by omega)).trans (le_max_right ..)

/-- Settles O42. -/
theorem frameCountIsTheCeiling : Obligations.FrameCountIsTheCeiling := by
  intro c n legal
  exact ⟨fun empty => empty ▸ nframes_zero c, nframes_bounds legal, fun fits => ⟨nframes_pos legal n, nframes_le_nMax fits⟩⟩

/-- Settles O41: a frame's slice begins below the payload's end and, but for the last, ends there or before. -/
theorem frameLengthsAreBounded : Obligations.FrameLengthsAreBounded := by
  intro c payload a legal
  have pos := pcap_pos legal
  have chunk := chunkSize_eq legal
  refine ⟨fun k f listed => ?_, fun exact => ?_, fun empty => ?_⟩
  · obtain ⟨inside, rfl⟩ := (getElem?_encodeFrames_eq_some_iff c payload a k).mp listed
    rw [length_frameBytes, chunk, Nat.succ_mul]
    have lastBegins : payload.length ≠ 0 → k * pcap c < payload.length := fun nonempty =>
      lt_of_le_of_lt (Nat.mul_le_mul_right _ (by omega)) (nframes_bounds legal nonempty).1
    refine ⟨by omega, by omega, fun more => ?_, fun nonempty => ?_⟩
    · have nonempty : payload.length ≠ 0 := by
        intro empty
        rw [empty, nframes_zero] at more
        omega
      have fullSlice : (k + 1) * pcap c < payload.length :=
        lt_of_le_of_lt (Nat.mul_le_mul_right _ (by omega)) (nframes_bounds legal nonempty).1
      rw [Nat.succ_mul] at fullSlice
      omega
    · have begins := lastBegins (List.length_eq_zero_iff.not.mpr nonempty)
      omega
  · have len : payload.length = pcap c := exact
    have one : nframes c payload.length = 1 := by
      have few := (nframes_bounds legal (n := payload.length) (by omega)).1
      have some := nframes_pos legal payload.length
      by_contra more
      have two : 1 * pcap c ≤ (nframes c payload.length - 1) * pcap c := Nat.mul_le_mul_right _ (by omega)
      omega
    refine ⟨frameBytes c payload a 0, by rw [encodeFrames, one]; rfl, ?_⟩
    rw [length_frameBytes, chunk]
    omega
  · rw [empty]
    simp [encodeFrames, nframes_zero, frameBytes, trailer]

/-- The slices of the frames, put together, are the payload as far as they reach. -/
theorem flatten_slices (payload : List Byte) (p n : Nat) :
    ((List.range n).map (fun k => (payload.drop (k * p)).take p)).flatten = payload.take (n * p) := by
  induction n with
  | zero => simp
  | succ n ih => rw [List.range_succ, List.map_append, List.flatten_append, ih, List.map_singleton, List.flatten_singleton,
      Nat.succ_mul, List.take_add]

theorem framePayload_frameBytes (c : Config) (payload : List Byte) (a : Half) (k : Nat) :
    framePayload (frameBytes c payload a k) = (payload.drop (k * pcap c)).take (pcap c) := by
  rw [framePayload, frameBytes, List.length_append, length_trailer, Nat.add_sub_cancel, List.take_left]

/-- Settles O43: the slices cover the payload, and the first frame's trailer spells the address. -/
theorem decodingTheFramesGivesPayloadAndAddress : Obligations.DecodingTheFramesGivesPayloadAndAddress := by
  intro c payload a legal
  have covers : payload.length ≤ nframes c payload.length * pcap c := by
    by_cases empty : payload.length = 0
    · omega
    · exact (nframes_bounds legal empty).2
  have slices : ((encodeFrames c payload a).map framePayload).flatten = payload := by
    simp only [encodeFrames, List.map_map, Function.comp_def, framePayload_frameBytes, flatten_slices]
    exact List.take_of_length_le covers
  obtain ⟨n, frames⟩ := Nat.exists_eq_add_of_le (nframes_pos legal payload.length)
  have head : ∃ fs, encodeFrames c payload a = frameBytes c payload a 0 :: fs := by
    rw [encodeFrames, frames, Nat.add_comm, List.range_succ_eq_map]
    exact ⟨_, rfl⟩
  obtain ⟨fs, head⟩ := head
  rw [head] at slices ⊢
  rw [decodeFrames, slices, Prod.mk.injEq]
  refine ⟨rfl, ?_⟩
  have bound := a.isLt
  simp only [frameBytes, getElem?_append_trailer_high, getElem?_append_trailer_low, Option.getD_some, BitVec.toNat_ofNat]
  omega

/-! The frame assembled at an edge is the one of the function level (R177). -/

theorem assembleFrame_of_holds {c : Config} {e : Encoder} {m : Memory} {payload : List Byte} {k : Nat}
    (len : payload.length = e.len.toNat) (held : holds m payload) (begins : k * pcap c ≤ payload.length) :
    assembleFrame c e m k = .ok (padFrame c (frameBytes c payload e.addr k)) := by
  have slice : ((payload.drop (k * pcap c)).take (pcap c)).length =
      min e.len.toNat (k * pcap c + pcap c) - k * pcap c := by
    rw [List.length_take, List.length_drop]
    omega
  have read : readRange m (k * pcap c) (min e.len.toNat (k * pcap c + pcap c) - k * pcap c) =
      .ok ((payload.drop (k * pcap c)).take (pcap c)) := by
    rw [← slice]
    refine readRange_ok fun j inside => ?_
    rw [List.length_take, List.length_drop] at inside
    rw [held _ (by omega), List.getElem?_take_of_lt (by omega), List.getElem?_drop]
  rw [assembleFrame, read]
  rfl

theorem frame_begins {c : Config} (legal : legalConfig c = true) {n k : Nat} (inside : k < nframes c n) : k * pcap c ≤ n := by
  by_cases empty : n = 0
  · rw [empty, nframes_zero] at inside
    obtain rfl : k = 0 := by omega
    omega
  · exact ((Nat.mul_le_mul_right _ (by omega)).trans_lt (nframes_bounds legal empty).1).le

/-- A padded frame is one R36 and R190 allow, when its bytes are. -/
theorem padFrame_wf {c : Config} {bytes : List Byte} (least : 2 ≤ bytes.length) (most : bytes.length ≤ c.chunkSize)
    (small : c.chunkSize ≤ 65535) : (padFrame c bytes).wf c = true := by
  have len : (padFrame c bytes).len.toNat = bytes.length := toNat_half_of_le (by omega)
  rw [Frame.wf, decide_eq_true_iff, len]
  refine ⟨least, most, ?_⟩
  rw [padFrame, List.length_append, List.length_replicate]
  omega

/-! The edge in S_ENC (R247, R170). -/

section Enc
variable {s t : State} {f : Frame}

theorem exec_sEnc_of_past (past : nframes s.cfg s.enc.len.toNat ≤ s.enc.k.toNat) : exec .sEnc s = .fault .indexOutOfRange := by
  rw [exec, execSEnc, if_pos past]

theorem exec_sEnc_of_unreadable (inside : s.enc.k.toNat < nframes s.cfg s.enc.len.toNat) {e : Fault}
    (failed : assembleFrame s.cfg s.enc s.lbuf s.enc.k.toNat = .error e) : exec .sEnc s = .fault e := by
  rw [exec, execSEnc, if_neg inside.not_ge, failed]

theorem exec_sEnc_of_push_error (inside : s.enc.k.toNat < nframes s.cfg s.enc.len.toNat)
    (assembled : assembleFrame s.cfg s.enc s.lbuf s.enc.k.toNat = .ok f) {e : Fault} (failed : fifoPush s f = .error e) :
    exec .sEnc s = .fault e := by
  rw [exec, execSEnc, if_neg inside.not_ge, assembled]
  simp only [failed]

theorem exec_sEnc_of_push (inside : s.enc.k.toNat < nframes s.cfg s.enc.len.toNat)
    (assembled : assembleFrame s.cfg s.enc s.lbuf s.enc.k.toNat = .ok f) (pushed : fifoPush s f = .ok t) :
    exec .sEnc s = .next (
      if s.enc.k.toNat + 1 = nframes s.cfg s.enc.len.toNat then t.setSt stPollQ
      else { t with enc := { t.enc with k := BitVec.ofNat 16 (s.enc.k.toNat + 1) } }) := by
  rw [exec, execSEnc, if_neg inside.not_ge, assembled]
  simp only [pushed]

end Enc

/-- Settles O21: the frame assembled is the one of `encode`, and the push answers. -/
theorem encPushesOneFrame : Obligations.EncPushesOneFrame := by
  refine ⟨rfl, fun s payload legal len held inside room wptr => ?_⟩
  obtain ⟨-, -, -, small, -, depthMax⟩ := (legalConfig_iff s.cfg).mp legal
  have assembled := assembleFrame_of_holds len held (len ▸ frame_begins legal inside)
  generalize padFrame s.cfg (frameBytes s.cfg payload s.enc.addr s.enc.k.toNat) = f at assembled ⊢
  have pushed : ∃ t, fifoPush s f = .ok t := ⟨_, by rw [fifoPush, if_neg room.not_ge, if_neg wptr.not_ge]⟩
  obtain ⟨t, pushed⟩ := pushed
  obtain ⟨-, -, rfl⟩ := fifoPush_ok pushed
  have wptrNext : (BitVec.ofNat 16 ((s.fifo.wptr.toNat + 1) % s.cfg.fifoDepth)).toNat =
      (s.fifo.wptr.toNat + 1) % s.cfg.fifoDepth :=
    toNat_half_of_le ((Nat.mod_lt _ (by omega)).le.trans depthMax)
  have countNext : (BitVec.ofNat 16 (s.fifo.count.toNat + 1)).toNat = s.fifo.count.toNat + 1 :=
    toNat_half_of_le (by omega)
  have others : ∀ k, k ≠ s.fifo.wptr.toNat →
      Store.read (Store.write s.fifo.mem s.fifo.wptr.toNat f) k = Store.read s.fifo.mem k :=
    fun k elsewhere => Store.read_write_ne _ f elsewhere
  refine ⟨_, exec_sEnc_of_push inside assembled pushed, ?_⟩
  split
  next last =>
    exact ⟨Store.read_write_same .., others, wptrNext, rfl, countNext, fun _ => ⟨rfl, rfl⟩, fun more => absurd last more,
      rfl, rfl, rfl, rfl, rfl, rfl, rfl, rfl⟩
  next more =>
    have indexNext : (BitVec.ofNat 16 (s.enc.k.toNat + 1)).toNat = s.enc.k.toNat + 1 := by
      refine toNat_half_of_le ?_
      have bound := s.enc.k.isLt
      have few := s.enc.len.isLt
      have reach := frame_begins (k := s.enc.k.toNat + 1) legal (lt_of_le_of_ne inside more)
      have pos := pcap_pos legal
      have := Nat.le_mul_of_pos_right (s.enc.k.toNat + 1) pos
      omega
    exact ⟨Store.read_write_same .., others, wptrNext, rfl, countNext, fun last => absurd last more,
      fun _ => ⟨rfl, indexNext, rfl, rfl⟩, rfl, rfl, rfl, rfl, rfl, rfl, rfl, rfl⟩

end Sys2Proof.Machine
end

section
/-! PROOFS. 42_pending_queue.md: a pop (R191) and a push with a pop (R192) keep the FIFO's registers in agreement, and the order
in which frames leave (R195). -/

namespace Sys2Proof.Machine

/-! When a pop answers, and what FIFO_POP makes of it. -/

section Pop
variable {s t : State} {f : Frame}

theorem fifoPop_of_empty (empty : s.fifo.count = 0) : fifoPop s = .error .fifoPopEmpty :=
  if_pos empty

theorem fifoPop_of_past (held : s.fifo.count ≠ 0) (past : s.cfg.fifoDepth ≤ s.fifo.rptr.toNat) :
    fifoPop s = .error .indexOutOfRange := by
  rw [fifoPop, if_neg held, if_pos past]

theorem fifoPop_of_no_value (held : s.fifo.count ≠ 0) (inside : s.fifo.rptr.toNat < s.cfg.fifoDepth)
    (noValue : Store.read s.fifo.mem s.fifo.rptr.toNat = none) : fifoPop s = .error .noValueRead := by
  rw [fifoPop, if_neg held, if_neg inside.not_ge, noValue]

theorem fifoPop_of_value (held : s.fifo.count ≠ 0) (inside : s.fifo.rptr.toNat < s.cfg.fifoDepth)
    (value : Store.read s.fifo.mem s.fifo.rptr.toNat = some f) : ∃ t, fifoPop s = .ok (f, t) := by
  rw [fifoPop, if_neg held, if_neg inside.not_ge, value]
  exact ⟨_, rfl⟩

theorem exec_fifoPop_of_ok (popped : fifoPop s = .ok (f, t)) : exec .fifoPop s = .next (t.latchFrame f) := by
  rw [exec, execFifoPop, popped]

theorem exec_fifoPop_of_error {e : Fault} (failed : fifoPop s = .error e) : exec .fifoPop s = .fault e := by
  rw [exec, execFifoPop, failed]

theorem exec_fifoPop_next {u : State} (answered : exec .fifoPop s = .next u) :
    ∃ f t, fifoPop s = .ok (f, t) ∧ u = t.latchFrame f := by
  rw [exec, execFifoPop] at answered
  split at answered
  · cases answered
  next f t popped =>
    cases answered
    exact ⟨f, t, popped, rfl⟩

/-- A pop writes the FIFO and nothing else, and of the FIFO two registers. -/
theorem fifoPop_frame (popped : fifoPop s = .ok (f, t)) :
    t = { s with fifo := t.fifo } ∧ t.fifo.mem = s.fifo.mem ∧ t.fifo.wptr = s.fifo.wptr := by
  obtain ⟨-, -, -, rfl⟩ := fifoPop_ok popped
  exact ⟨rfl, rfl, rfl⟩

theorem fifoPop_cfg (popped : fifoPop s = .ok (f, t)) : t.cfg = s.cfg := by
  rw [(fifoPop_frame popped).1]

theorem fifoPop_count (popped : fifoPop s = .ok (f, t)) : t.fifo.count.toNat + 1 = s.fifo.count.toNat := by
  obtain ⟨held, -, -, rfl⟩ := fifoPop_ok popped
  have pos : s.fifo.count.toNat ≠ 0 := fun zero => held (BitVec.eq_of_toNat_eq zero)
  have bound := s.fifo.count.isLt
  have count : (BitVec.ofNat 16 (s.fifo.count.toNat - 1)).toNat = s.fifo.count.toNat - 1 := toNat_half_of_le (by omega)
  dsimp only
  omega

theorem FifoOk.fifoPop_rptr (ok : FifoOk s) (popped : fifoPop s = .ok (f, t)) :
    t.fifo.rptr.toNat = (s.fifo.rptr.toNat + 1) % s.cfg.fifoDepth := by
  obtain ⟨-, -, -, rfl⟩ := fifoPop_ok popped
  obtain ⟨depthMin, depthMax⟩ := ok.depth
  exact toNat_half_of_le ((Nat.mod_lt _ depthMin).le.trans depthMax)

/-- A pop keeps R193: the read pointer advances where the count goes back. -/
theorem FifoOk.after_fifoPop (ok : FifoOk s) (popped : fifoPop s = .ok (f, t)) : FifoOk t := by
  obtain ⟨-, mem, wptr⟩ := fifoPop_frame popped
  have count := fifoPop_count popped
  have held := ok.count
  refine ⟨?_, ?_, ?_, ?_⟩
  · rw [fifoPop_cfg popped]
    exact ok.depth
  · rw [fifoPop_cfg popped]
    omega
  · rw [fifoPop_cfg popped, ok.fifoPop_rptr popped]
    exact Nat.mod_lt _ ok.depth.1
  · rw [wptr, ok.wptr, ok.fifoPop_rptr popped, fifoPop_cfg popped, Nat.mod_add_mod, ← count, Nat.add_assoc,
      Nat.add_comm 1]

/-- The frames held, head first. -/
theorem FifoOk.fifoFrames_eq_cons (ok : FifoOk s) {n : Nat} (count : s.fifo.count.toNat = n + 1) :
    fifoFrames s = Store.read s.fifo.mem s.fifo.rptr.toNat ::
      (List.range n).map (fun j => Store.read s.fifo.mem ((s.fifo.rptr.toNat + 1 + j) % s.cfg.fifoDepth)) := by
  rw [fifoFrames, count, List.range_succ_eq_map, List.map_cons, List.map_map, Nat.add_zero, Nat.mod_eq_of_lt ok.rptr]
  simp only [Function.comp_def, Nat.succ_eq_add_one, Nat.add_assoc, Nat.add_comm 1]

/-- The frames held after a pop: all but the head. -/
theorem FifoOk.fifoFrames_fifoPop (ok : FifoOk s) (popped : fifoPop s = .ok (f, t)) :
    fifoFrames s = some f :: fifoFrames t := by
  obtain ⟨-, -, head, -⟩ := fifoPop_ok popped
  rw [ok.fifoFrames_eq_cons (fifoPop_count popped).symm, head, fifoFrames, fifoPop_cfg popped, ok.fifoPop_rptr popped,
    (fifoPop_frame popped).2.1]
  simp only [Nat.mod_add_mod]

theorem fifoFrames_of_empty (empty : s.fifo.count = 0) : fifoFrames s = [] := by
  rw [fifoFrames, empty]
  rfl

/-- A FIFO that lists a frame first has it at the read pointer, and is not empty. -/
theorem FifoOk.head_of_fifoFrames (ok : FifoOk s) {fs : List (Option Frame)} (frames : fifoFrames s = some f :: fs) :
    s.fifo.count ≠ 0 ∧ Store.read s.fifo.mem s.fifo.rptr.toNat = some f := by
  by_cases empty : s.fifo.count = 0
  · rw [fifoFrames_of_empty empty] at frames
    cases frames
  · obtain ⟨n, count⟩ := Nat.exists_eq_succ_of_ne_zero fun zero => empty (BitVec.eq_of_toNat_eq zero)
    rw [ok.fifoFrames_eq_cons count] at frames
    exact ⟨empty, (List.cons.inj frames).1⟩

/-- A FIFO that holds only frames answers a pop, unless it is empty. -/
theorem FifoOk.fifoPop_answers (ok : FifoOk s) (frames : ∀ e ∈ fifoFrames s, ∃ f : Frame, e = some f ∧ f.wf s.cfg = true)
    (notEmpty : s.fifo.count ≠ 0) : ∃ f t, fifoPop s = .ok (f, t) ∧ f.wf s.cfg = true := by
  obtain ⟨n, count⟩ := Nat.exists_eq_succ_of_ne_zero fun zero => notEmpty (BitVec.eq_of_toNat_eq zero)
  obtain ⟨f, head, wf⟩ := frames (Store.read s.fifo.mem s.fifo.rptr.toNat) (by
    rw [ok.fifoFrames_eq_cons count]
    exact List.mem_cons_self)
  obtain ⟨t, popped⟩ := fifoPop_of_value notEmpty ok.rptr head
  exact ⟨f, t, popped, wf⟩

end Pop

/-- Settles O47: an empty FIFO refuses; otherwise the pop answers, and its state is read off the lemmas above. -/
theorem popTakesTheHeadFrame : Obligations.PopTakesTheHeadFrame := by
  refine ⟨rfl, fun s ok => ⟨fun empty => exec_fifoPop_of_error (fifoPop_of_empty empty), fun f fs frames => ?_⟩⟩
  obtain ⟨notEmpty, head⟩ := ok.head_of_fifoFrames frames
  obtain ⟨t, popped⟩ := fifoPop_of_value notEmpty ok.rptr head
  obtain ⟨frame, mem, wptr⟩ := fifoPop_frame popped
  have after := ok.after_fifoPop popped
  have rptr := ok.fifoPop_rptr popped
  have count := fifoPop_count popped
  refine ⟨_, exec_fifoPop_of_ok popped, ⟨after.depth, after.count, after.rptr, after.wptr⟩, ?_, mem, wptr, rptr, count, ?_, ?_⟩
  · have tail := ok.fifoFrames_fifoPop popped
    exact (List.cons.inj (tail.symm.trans frames)).2
  · rw [State.latchFrame_tx, frame]
  · rw [State.latchFrame, frame]

/-! A push and a pop at one edge (R192). -/

section PushPop
variable {s t : State} {f g : Frame}

theorem fifoPushPop_of_empty (g : Frame) (empty : s.fifo.count = 0) : fifoPushPop s g = .error .fifoPopEmpty :=
  if_pos empty

theorem fifoPushPop_of_past (g : Frame) (held : s.fifo.count ≠ 0)
    (past : s.cfg.fifoDepth ≤ s.fifo.rptr.toNat ∨ s.cfg.fifoDepth ≤ s.fifo.wptr.toNat) :
    fifoPushPop s g = .error .indexOutOfRange := by
  rw [fifoPushPop, if_neg held, if_pos past]

theorem fifoPushPop_of_no_value (g : Frame) (held : s.fifo.count ≠ 0) (rptr : s.fifo.rptr.toNat < s.cfg.fifoDepth)
    (wptr : s.fifo.wptr.toNat < s.cfg.fifoDepth) (noValue : Store.read s.fifo.mem s.fifo.rptr.toNat = none) :
    fifoPushPop s g = .error .noValueRead := by
  rw [fifoPushPop, if_neg held, if_neg (not_or.mpr ⟨rptr.not_ge, wptr.not_ge⟩), noValue]

theorem fifoPushPop_of_value (g : Frame) (held : s.fifo.count ≠ 0) (rptr : s.fifo.rptr.toNat < s.cfg.fifoDepth)
    (wptr : s.fifo.wptr.toNat < s.cfg.fifoDepth) (value : Store.read s.fifo.mem s.fifo.rptr.toNat = some f) :
    ∃ t, fifoPushPop s g = .ok (f, t) := by
  rw [fifoPushPop, if_neg held, if_neg (not_or.mpr ⟨rptr.not_ge, wptr.not_ge⟩), value]
  exact ⟨_, rfl⟩

theorem exec_fifoPushPop_of_ok (done : fifoPushPop s g = .ok (f, t)) :
    exec (.fifoPushPop g) s = .next (t.latchFrame f) := by
  rw [exec, execFifoPushPop, done]

theorem exec_fifoPushPop_of_error {e : Fault} (failed : fifoPushPop s g = .error e) :
    exec (.fifoPushPop g) s = .fault e := by
  rw [exec, execFifoPushPop, failed]

/-- R192 is a pop, and then a push: the place the pop frees makes the room, on a full FIFO too. -/
theorem FifoOk.fifoPushPop_eq (ok : FifoOk s) (done : fifoPushPop s g = .ok (f, t)) :
    ∃ u, fifoPop s = .ok (f, u) ∧ fifoPush u g = .ok t := by
  obtain ⟨notEmpty, rptr, wptr, head, rfl⟩ := fifoPushPop_ok done
  obtain ⟨u, popped⟩ := fifoPop_of_value notEmpty rptr head
  have count := fifoPop_count popped
  have held := ok.count
  refine ⟨u, popped, ?_⟩
  obtain ⟨-, -, -, rfl⟩ := fifoPop_ok popped
  dsimp only at count
  rw [fifoPush, if_neg (by dsimp only; omega), if_neg wptr.not_ge]
  dsimp only
  rw [count, BitVec.ofNat_toNat, BitVec.setWidth_eq]

end PushPop

/-- Settles O48: an empty FIFO refuses; otherwise it is the pop and the push that the two instructions' own rules describe. -/
theorem pushPopReplacesTheHead : Obligations.PushPopReplacesTheHead := by
  refine ⟨rfl, fun s g ok => ⟨fun empty => exec_fifoPushPop_of_error (fifoPushPop_of_empty g empty), fun f fs frames => ?_⟩⟩
  obtain ⟨notEmpty, head⟩ := ok.head_of_fifoFrames frames
  obtain ⟨t, done⟩ := fifoPushPop_of_value g notEmpty ok.rptr ok.wptr_lt head
  obtain ⟨u, popped, pushed⟩ := ok.fifoPushPop_eq done
  have middle := ok.after_fifoPop popped
  have after := middle.after_fifoPush pushed
  obtain ⟨popFrame, mem, wptr⟩ := fifoPop_frame popped
  have pushFrame := fifoPush_frame pushed
  refine ⟨_, exec_fifoPushPop_of_ok done, ⟨after.depth, after.count, after.rptr, after.wptr⟩, ?_, ?_, ?_, ?_, ?_, ?_, ?_⟩
  · have rest := (List.cons.inj ((ok.fifoFrames_fifoPop popped).symm.trans frames)).2
    have behind := middle.fifoFrames_fifoPush pushed
    rw [← rest]
    exact behind
  · obtain ⟨-, -, -, -, rfl⟩ := fifoPushPop_ok done
    rfl
  · rw [State.latchFrame_fifo, fifoPush_rptr pushed, ok.fifoPop_rptr popped]
  · rw [State.latchFrame_fifo, middle.fifoPush_wptr pushed, wptr, fifoPop_cfg popped]
  · intro k elsewhere
    rw [State.latchFrame_fifo, fifoPush_mem pushed, wptr, mem, Store.read_write_ne _ g elsewhere]
  · rw [State.latchFrame_tx, pushFrame, popFrame]
  · rw [State.latchFrame, pushFrame, popFrame]

/-- What R195's order rests on: pushes add behind and pops take from the front, whatever the FIFO held before. -/
theorem fifoTrace_order (ops : List (Option Frame)) {s t : State} {popped : List Frame} (ok : FifoOk s)
    (traced : fifoTrace ops s = some (popped, t)) :
    fifoFrames s ++ (ops.filterMap id).map some = popped.map some ++ fifoFrames t := by
  induction ops generalizing s popped with
  | nil =>
    cases traced
    simp
  | cons op ops ih =>
    cases op with
    | some f =>
      rw [fifoTrace] at traced
      cases answer : fifoPush s f with
      | error e =>
        rw [exec_fifoPush_of_error answer] at traced
        cases traced
      | ok u =>
        rw [exec_fifoPush_of_ok answer] at traced
        have rest := ih (ok.after_fifoPush answer) traced
        rw [ok.fifoFrames_fifoPush answer, List.append_assoc] at rest
        exact rest
    | none =>
      rw [fifoTrace] at traced
      cases answer : fifoPop s with
      | error e =>
        rw [exec_fifoPop_of_error answer] at traced
        cases traced
      | ok fu =>
        obtain ⟨f, u⟩ := fu
        rw [exec_fifoPop_of_ok answer] at traced
        dsimp only at traced
        split at traced
        next es v inner =>
          cases traced
          have after := ok.after_fifoPop answer
          have rest := ih (s := u.latchFrame f) ⟨after.depth, after.count, after.rptr, after.wptr⟩ inner
          have same : fifoFrames (u.latchFrame f) = fifoFrames u := rfl
          rw [ok.fifoFrames_fifoPop answer, List.map_cons, List.cons_append, List.cons_append, ← rest, same]
          rfl
        next => cases traced

/-- Settles O49: an empty FIFO lists no frame. -/
theorem framesLeaveInTheOrderTheyEntered : Obligations.FramesLeaveInTheOrderTheyEntered := by
  intro ops s t popped ok empty traced
  have order := fifoTrace_order ops ok traced
  rwa [fifoFrames_of_empty empty, List.nil_append] at order

/-! The edge in S_POLL_Q (R248). -/

section PollQ
variable {s t : State} {f : Frame}

theorem exec_sPollQ_of_empty (empty : s.fifo.count = 0) : exec .sPollQ s = .next (s.setSt stPollB) := by
  rw [exec, execSPollQ, fifoEmpty, decide_eq_true empty]

theorem exec_sPollQ_of_pop (popped : fifoPop s = .ok (f, t)) :
    exec .sPollQ s = .next ({ t with tx := { buf := some f.data, len := f.len, idx := 0 } }.setSt stTxB) := by
  rw [exec, execSPollQ, fifoEmpty, decide_eq_false (fifoPop_ok popped).1]
  simp only [popped]

theorem exec_sPollQ_of_error (notEmpty : s.fifo.count ≠ 0) {e : Fault} (failed : fifoPop s = .error e) :
    exec .sPollQ s = .fault e := by
  rw [exec, execSPollQ, fifoEmpty, decide_eq_false notEmpty]
  simp only [failed]

end PollQ

/-- Settles O22: the pop's lemmas, with the entry in the transmit registers. -/
theorem pollQPopsOneFrame : Obligations.PollQPopsOneFrame := by
  refine ⟨rfl, fun s => ⟨exec_sPollQ_of_empty, fun f ok notEmpty head => ?_⟩⟩
  obtain ⟨t, popped⟩ := fifoPop_of_value notEmpty ok.rptr head
  have after := ok.after_fifoPop popped
  have frames := ok.fifoFrames_fifoPop popped
  refine ⟨_, exec_sPollQ_of_pop popped, rfl, ?_, ⟨after.depth, after.count, after.rptr, after.wptr⟩, frames, ?_⟩
  · rw [(fifoPop_frame popped).1]
    rfl
  · obtain ⟨-, -, -, rfl⟩ := fifoPop_ok popped
    exact ⟨rfl, rfl, rfl, rfl, rfl, rfl, rfl, rfl, rfl, rfl⟩

end Sys2Proof.Machine
end

section
/-! PROOFS. 44_scheduler.md: which operation an edge performs (R240), and what each scheduler operation can do, said once. -/

namespace Sys2Proof.Machine

/-! The code and the operation (R100, R254). -/

/-- The operation each scheduler code names (R100). -/
inductive Names : BitVec 4 → Instr → Prop
  | pollA : Names stPollA .sPollA
  | rxA : Names stRxA .sRxA
  | enc : Names stEnc .sEnc
  | pollQ : Names stPollQ .sPollQ
  | txB : Names stTxB .sTxB
  | throttle : Names stThrottle .sThrottle
  | pollB : Names stPollB .sPollB
  | rxB : Names stRxB .sRxB
  | txA : Names stTxA .sTxA
  | stopClean : Names stStopClean .sStopClean
  | stopError : Names stStopError .sStopError

theorem Names.decodeSched {st : BitVec 4} {i : Instr} (named : Names st i) : decodeSched st = .ok i := by
  cases named <;> rfl

theorem names_of_decodeSched {st : BitVec 4} {i : Instr} (decoded : Sys2Proof.decodeSched st = .ok i) : Names st i := by
  have code : ∀ {n : Nat}, st.toNat = n → st = BitVec.ofNat 4 n := fun h => by rw [← h, BitVec.ofNat_toNat, BitVec.setWidth_eq]
  unfold Sys2Proof.decodeSched at decoded
  split at decoded
  next h => cases decoded; rw [code h]; exact .pollA
  next h => cases decoded; rw [code h]; exact .rxA
  next h => cases decoded; rw [code h]; exact .enc
  next h => cases decoded; rw [code h]; exact .pollQ
  next h => cases decoded; rw [code h]; exact .txB
  next h => cases decoded; rw [code h]; exact .throttle
  next h => cases decoded; rw [code h]; exact .pollB
  next h => cases decoded; rw [code h]; exact .rxB
  next h => cases decoded; rw [code h]; exact .txA
  next h => cases decoded; rw [code h]; exact .stopClean
  next h => cases decoded; rw [code h]; exact .stopError
  next => cases decoded

theorem decodeSched_error {st : BitVec 4} {e : DecodeError} (failed : Sys2Proof.decodeSched st = .error e) :
    e = .reservedState := by
  unfold Sys2Proof.decodeSched at failed
  split at failed <;> cases failed
  rfl

/-- A code names an operation exactly where it is none of the reserved ones. -/
theorem exists_names {st : BitVec 4} (code : st.toNat ≤ 10) : ∃ i, Names st i := by
  have finite : ∀ v : BitVec 4, v.toNat ≤ 10 → Sys2Proof.decodeSched v ≠ .error .reservedState := by decide
  cases decoded : Sys2Proof.decodeSched st with
  | ok i => exact ⟨i, names_of_decodeSched decoded⟩
  | error e =>
    have onlyReserved : e = .reservedState := decodeSched_error decoded
    exact absurd (onlyReserved ▸ decoded) (finite st code)

theorem decodeSched_reserved {st : BitVec 4} (reserved : 11 ≤ st.toNat) :
    Sys2Proof.decodeSched st = .error .reservedState := by
  revert st
  decide

theorem Names.of_eq {st st' : BitVec 4} {i : Instr} (code : st' = st) (named : Names st i) : Names st' i := code ▸ named

theorem Names.not_isLine {st : BitVec 4} {i : Instr} (named : Names st i) : i.isLine = false := by
  cases named <;> rfl

theorem Names.cycles {st : BitVec 4} {i : Instr} (named : Names st i) : instrCycles i = 1 := by
  rw [instrCycles, named.not_isLine]
  rfl

/-! What the fetch presents (R106; log 3). -/

/-- The operations an edge can fetch: the one SCH.st names, or a whole line offered where its link is polled. -/
inductive Fetched (s : State) : Instr → Prop
  | sched {i : Instr} (named : Names s.sch.st i) : Fetched s i
  | lineA {content left : List Byte} {rest : List Stimulus} (offers : s.stim = .bytesA (content ++ termByte :: left) :: rest)
      (wf : lineWf content = true) (polls : s.sch.st = stPollA) (admitted : fifoAdmits s = true) :
      Fetched s (lineInstrA content)
  | lineB {content left : List Byte} {rest : List Stimulus} (offers : s.stim = .bytesB (content ++ termByte :: left) :: rest)
      (wf : lineWf content = true) (polls : s.sch.st = stPollB) : Fetched s (lineInstrB content)

theorem takesLineA_iff (s : State) (bytes : List Byte) :
    s.takesLineA bytes = true ↔
      s.sch.st = stPollA ∧ fifoAdmits s = true ∧ ∃ content left, splitLine bytes = some (content, left) := by
  rw [State.takesLineA, Bool.and_eq_true, Bool.and_eq_true, decide_eq_true_iff, Option.isSome_iff_exists, and_assoc]
  simp only [Prod.exists]

theorem takesLineB_iff (s : State) (bytes : List Byte) :
    s.takesLineB bytes = true ↔ s.sch.st = stPollB ∧ ∃ content left, splitLine bytes = some (content, left) := by
  rw [State.takesLineB, Bool.and_eq_true, decide_eq_true_iff, Option.isSome_iff_exists]
  simp only [Prod.exists]

theorem fetched_of_decode {s : State} {i : Instr} (decoded : decode s.fetch = .ok i) : Fetched s i := by
  unfold State.fetch at decoded
  split at decoded
  next bytes rest offers =>
    split at decoded
    next takes =>
      obtain ⟨polls, admitted, content, left, split⟩ := (takesLineA_iff s bytes).mp takes
      obtain ⟨rfl, wf⟩ := splitLine_eq_some split
      rw [decode_lineA left wf, Except.ok.injEq] at decoded
      exact decoded ▸ .lineA offers wf polls admitted
    next => exact .sched (names_of_decodeSched decoded)
  next bytes rest offers =>
    split at decoded
    next takes =>
      obtain ⟨polls, content, left, split⟩ := (takesLineB_iff s bytes).mp takes
      obtain ⟨rfl, wf⟩ := splitLine_eq_some split
      rw [decode_lineB left wf, Except.ok.injEq] at decoded
      exact decoded ▸ .lineB offers wf polls
    next => exact .sched (names_of_decodeSched decoded)
  next => exact .sched (names_of_decodeSched decoded)
  next => exact .sched (names_of_decodeSched decoded)

/-- Where SCH.st polls neither link, the operation is its own. -/
theorem fetch_of_not_polling {s : State} (notA : s.sch.st ≠ stPollA) (notB : s.sch.st ≠ stPollB) :
    s.fetch = .sched s.sch.st := by
  have noLineA (bytes : List Byte) : ¬ s.takesLineA bytes = true := fun takes => notA ((takesLineA_iff s bytes).mp takes).1
  have noLineB (bytes : List Byte) : ¬ s.takesLineB bytes = true := fun takes => notB ((takesLineB_iff s bytes).mp takes).1
  unfold State.fetch
  split
  · exact if_neg (noLineA _)
  · exact if_neg (noLineB _)
  · rfl
  · rfl

/-- A code that is not reserved always fetches an operation. -/
theorem exists_decode_fetch {s : State} (code : s.sch.st.toNat ≤ 10) : ∃ i, decode s.fetch = .ok i := by
  obtain ⟨i, named⟩ := exists_names code
  have own : decode (.sched s.sch.st) = .ok i := named.decodeSched
  unfold State.fetch
  split
  next bytes rest _ =>
    split
    next takes =>
      obtain ⟨-, -, content, left, split⟩ := (takesLineA_iff s bytes).mp takes
      obtain ⟨rfl, wf⟩ := splitLine_eq_some split
      exact ⟨_, decode_lineA left wf⟩
    next => exact ⟨i, own⟩
  next bytes rest _ =>
    split
    next takes =>
      obtain ⟨-, content, left, split⟩ := (takesLineB_iff s bytes).mp takes
      obtain ⟨rfl, wf⟩ := splitLine_eq_some split
      exact ⟨_, decode_lineB left wf⟩
    next => exact ⟨i, own⟩
  next => exact ⟨i, own⟩
  next => exact ⟨i, own⟩

theorem length_lineInstrA_content (content : List Byte) :
    instrCycles (lineInstrA content) = content.length + 2 := by
  obtain ⟨body, rfl⟩ | other := dataLine_or_other content
  · rw [lineInstrA_of_data]
    rfl
  · rw [lineInstrA_of_other other]
    rfl

theorem length_lineInstrB_content (content : List Byte) :
    instrCycles (lineInstrB content) = content.length + 2 := by
  obtain ⟨body, rfl⟩ | other := returnLine_or_other content
  · rw [lineInstrB_of_return]
    rfl
  · rw [lineInstrB_of_other other]
    rfl

/-! The edge that performs an operation (R240, R242). -/

theorem calm_iff (p : Pins) : calm p = true ↔ p.rst = false ∧ p.cancel = false ∧ p.aErr = false ∧ p.bErr = false := by
  simp [calm, and_assoc]

/-- No operation is refused: each has a meaning. -/
theorem exec_ne_refused (i : Instr) (s : State) (r : Refusal) : exec i s ≠ .refused r := by
  cases i with
  | cmdData body => simp only [exec, execCmdData]; (repeat' split) <;> simp
  | lineOtherA content => simp only [exec, execLineOtherA]; split <;> simp
  | replyReturn body => simp only [exec, execReplyReturn]; (repeat' split) <;> simp
  | lineOtherB content => simp only [exec, execLineOtherB]; split <;> simp
  | sPollA | sPollB | sStopClean | sStopError => 
    intro refused
    cases refused
  | sRxA => simp only [exec, execSRxA]; (repeat' split) <;> simp
  | sEnc => simp only [exec, execSEnc]; (repeat' split) <;> simp
  | sPollQ => simp only [exec, execSPollQ]; (repeat' split) <;> simp
  | sTxB => simp only [exec, execSTxB]; split <;> simp
  | sThrottle => simp only [exec, execSThrottle]; split <;> simp
  | sRxB => simp only [exec, execSRxB]; (repeat' split) <;> simp
  | sTxA => simp only [exec, execSTxA]; split <;> simp
  | fifoPush f => simp only [exec, execFifoPush]; split <;> simp
  | fifoPop => simp only [exec, execFifoPop]; split <;> simp
  | fifoPushPop f => simp only [exec, execFifoPushPop]; split <;> simp

section Performs
variable {s : State} (legal : legalConfig s.cfg = true) (noReset : s.pins.rst = false)
  (noStop : s.stopped = false → calm s.pins = true)
include legal noReset noStop

/-- Past the reset and the stop inputs, the edge performs the decoded operation (R240, R242, R243). -/
theorem step_eq_decoded :
    step s = match decode s.fetch with
      | .ok i => finish s (instrCycles i) (exec i s.clearReport)
      | .error .reservedState => .fault .reservedState
      | .error .unterminated => .refused .undecodable
      | .error .fifoIdle => .refused .undecodable := by
  have noFailure : ¬ (!s.stopped && (s.pins.aErr || s.pins.bErr)) = true := by
    cases running : s.stopped with
    | true => simp
    | false =>
      obtain ⟨-, -, aErr, bErr⟩ := (calm_iff _).mp (noStop running)
      simp [aErr, bErr]
  have noCancel : ¬ (!s.stopped && s.pins.cancel) = true := by
    cases running : s.stopped with
    | true => simp
    | false =>
      obtain ⟨-, cancel, -, -⟩ := (calm_iff _).mp (noStop running)
      simp [cancel]
  rw [step, edge, if_neg (ne_true_of_eq_false · legal), if_neg (Bool.eq_false_iff.mp noReset), if_neg noFailure,
    if_neg noCancel]
    <;> rfl

theorem step_of_decoded {i : Instr} (decoded : decode s.fetch = .ok i) :
    step s = finish s (instrCycles i) (exec i s.clearReport) := by
  rw [step_eq_decoded legal noReset noStop, decoded]

end Performs

/-- Settles O12. -/
theorem stepRunsTheDecodedOperation : Obligations.StepRunsTheDecodedOperation := by
  intro s i legal noReset noStop decoded
  have performs := step_of_decoded legal noReset noStop decoded
  refine ⟨fun t answers => ?_, fun e faults => ?_, fun r => exec_ne_refused i _ r⟩
  · have answers : exec i s.clearReport = .next t := answers
    rw [performs, answers]
    rfl
  · have faults : exec i s.clearReport = .fault e := faults
    rw [performs, faults]
    rfl

/-- Settles O13: a reserved code polls no link, so the decoder is given the code itself. -/
theorem reservedSchedulerCodeFaults : Obligations.ReservedSchedulerCodeFaults := by
  intro s legal quiet reserved
  have fetch : s.fetch = .sched s.sch.st := by
    apply fetch_of_not_polling <;> intro polls <;> rw [polls] at reserved <;> exact absurd reserved (by decide)
  have decoded : decode s.fetch = .error .reservedState := by
    rw [fetch]
    exact decodeSched_reserved reserved
  rw [step_eq_decoded legal ((calm_iff _).mp quiet).1 (fun _ => quiet), decoded]

/-- The sampled ports do not depend on the report. -/
@[simp] theorem State.clearReport_pins (s : State) : s.clearReport.pins = s.pins := rfl

@[simp] theorem State.clearReport_stopped (s : State) : s.clearReport.stopped = s.stopped := rfl

/-- An edge given on its own, in the scheduler's operation. -/
theorem step_edge {s u : State} {p : Pins} {rest : List Stimulus} {i : Instr} (legal : legalConfig s.cfg = true)
    (offers : s.stim = .edge p :: rest) (noReset : p.rst = false) (noStop : s.stopped = false → calm p = true)
    (named : Names s.sch.st i) (answers : exec i s.clearReport = .next u) : step s = .next (u.after s 1) := by
  have pins := pins_edge offers
  have decoded : decode s.fetch = .ok i := by
    rw [fetch_edge offers]
    exact named.decodeSched
  rw [step_of_decoded legal (pins ▸ noReset) (pins ▸ noStop) decoded, answers, named.cycles]
  rfl

/-- The same at a calm edge. -/
theorem step_calm_edge {s u : State} {p : Pins} {rest : List Stimulus} {i : Instr} (legal : legalConfig s.cfg = true)
    (offers : s.stim = .edge p :: rest) (quiet : calm p = true) (named : Names s.sch.st i)
    (answers : exec i s.clearReport = .next u) : step s = .next (u.after s 1) :=
  step_edge legal offers ((calm_iff p).mp quiet).1 (fun _ => quiet) named answers

/-! What each scheduler operation can do: one inversion for each. -/

section Next
variable {s u : State}

theorem exec_sPollA_next (answers : exec .sPollA s = .next u) :
    (s.pins.aRxValid = true ∧ fifoAdmits s = true ∧ u = { s with p := Parser.init }.setSt stRxA) ∨ u = s.setSt stPollQ := by
  cases answers
  split
  next starts =>
    obtain ⟨offered, admitted⟩ := Bool.and_eq_true_iff.mp starts
    exact .inl ⟨offered, admitted, rfl⟩
  next => exact .inr rfl

theorem exec_sPollB_next (answers : exec .sPollB s = .next u) :
    u = { s with p := Parser.init }.setSt stRxB ∨ u = s.setSt stPollA := by
  cases answers
  split
  · exact .inl rfl
  · exact .inr rfl

theorem exec_sRxA_next (answers : exec .sRxA s = .next u) :
    (s.pins.aRxValid = false ∧ u = s) ∨
    ∃ r, (cmdMode s.cfg).step s.p s.lbuf s.pins.aRxData = .ok r ∧
      ((s.pins.aRxData ≠ termByte ∧ u = { s with p := r.p, lbuf := r.lbuf }) ∨
       (s.pins.aRxData = termByte ∧ u = s.endLineA r (eolCmd s.cfg r.p))) := by
  cases offered : s.pins.aRxValid with
  | false =>
    rw [exec_sRxA_of_no_byte offered] at answers
    exact .inl ⟨rfl, (Host.Outcome.next.inj answers).symm⟩
  | true =>
    cases stepped : cmdStep s.cfg s.p s.lbuf s.pins.aRxData with
    | error e =>
      simp only [exec, execSRxA, offered, stepped] at answers
      cases answers
    | ok r =>
      refine .inr ⟨r, stepped, ?_⟩
      have out : r.out = if s.pins.aRxData = termByte then some (eolCmd s.cfg r.p) else none :=
        LineMode.step_out (M := cmdMode s.cfg) stepped
      split at out
      next term =>
        rw [exec_sRxA_of_end offered stepped out] at answers
        exact .inr ⟨term, (Host.Outcome.next.inj answers).symm⟩
      next notTerm =>
        rw [exec_sRxA_of_byte offered stepped out] at answers
        exact .inl ⟨notTerm, (Host.Outcome.next.inj answers).symm⟩

theorem exec_sRxB_next (answers : exec .sRxB s = .next u) :
    (s.pins.bRxValid = false ∧ u = s) ∨
    ∃ r, (repMode s.cfg).step s.p s.lbuf s.pins.bRxData = .ok r ∧
      ((s.pins.bRxData ≠ termByte ∧ u = { s with p := r.p, lbuf := r.lbuf }) ∨
       (s.pins.bRxData = termByte ∧ u = s.endLineB r (eolReply s.cfg r.p))) := by
  cases offered : s.pins.bRxValid with
  | false =>
    rw [exec_sRxB_of_no_byte offered] at answers
    exact .inl ⟨rfl, (Host.Outcome.next.inj answers).symm⟩
  | true =>
    cases stepped : repStep s.cfg s.p s.lbuf s.pins.bRxData with
    | error e =>
      simp only [exec, execSRxB, offered, stepped] at answers
      cases answers
    | ok r =>
      refine .inr ⟨r, stepped, ?_⟩
      have out : r.out = if s.pins.bRxData = termByte then some (eolReply s.cfg r.p) else none :=
        LineMode.step_out (M := repMode s.cfg) stepped
      split at out
      next term =>
        rw [exec_sRxB_of_end offered stepped out] at answers
        exact .inr ⟨term, (Host.Outcome.next.inj answers).symm⟩
      next notTerm =>
        rw [exec_sRxB_of_byte offered stepped out] at answers
        exact .inl ⟨notTerm, (Host.Outcome.next.inj answers).symm⟩

theorem exec_sEnc_next (answers : exec .sEnc s = .next u) :
    ∃ f t, s.enc.k.toNat < nframes s.cfg s.enc.len.toNat ∧ assembleFrame s.cfg s.enc s.lbuf s.enc.k.toNat = .ok f ∧
      fifoPush s f = .ok t ∧
      ((s.enc.k.toNat + 1 = nframes s.cfg s.enc.len.toNat ∧ u = t.setSt stPollQ) ∨
       (s.enc.k.toNat + 1 ≠ nframes s.cfg s.enc.len.toNat ∧
        u = { t with enc := { t.enc with k := BitVec.ofNat 16 (s.enc.k.toNat + 1) } })) := by
  obtain past | inside := Nat.lt_or_ge s.enc.k.toNat (nframes s.cfg s.enc.len.toNat) |>.symm
  · rw [exec_sEnc_of_past past] at answers
    cases answers
  cases assembled : assembleFrame s.cfg s.enc s.lbuf s.enc.k.toNat with
  | error e =>
    rw [exec_sEnc_of_unreadable inside assembled] at answers
    cases answers
  | ok f =>
    cases pushed : fifoPush s f with
    | error e =>
      rw [exec_sEnc_of_push_error inside assembled pushed] at answers
      cases answers
    | ok t =>
      rw [exec_sEnc_of_push inside assembled pushed, Host.Outcome.next.injEq] at answers
      refine ⟨f, t, inside, rfl, pushed, ?_⟩
      split at answers
      next last => exact .inl ⟨last, answers.symm⟩
      next more => exact .inr ⟨more, answers.symm⟩

theorem exec_sPollQ_next (answers : exec .sPollQ s = .next u) :
    (s.fifo.count = 0 ∧ u = s.setSt stPollB) ∨
    ∃ f t, fifoPop s = .ok (f, t) ∧ u = { t with tx := { buf := some f.data, len := f.len, idx := 0 } }.setSt stTxB := by
  by_cases empty : s.fifo.count = 0
  · rw [exec_sPollQ_of_empty empty] at answers
    exact .inl ⟨empty, (Host.Outcome.next.inj answers).symm⟩
  · cases popped : fifoPop s with
    | error e =>
      rw [exec_sPollQ_of_error empty popped] at answers
      cases answers
    | ok ft =>
      rw [exec_sPollQ_of_pop popped] at answers
      exact .inr ⟨ft.1, ft.2, rfl, (Host.Outcome.next.inj answers).symm⟩

theorem exec_sTxB_of_byte {b : Byte} (value : s.frameByte = some b) :
    exec .sTxB s = .next (
      if s.pins.bTxReady = false then s
      else if s.tx.idx = s.tx.len then
        if s.cfg.throttleCycles = 0 then s.setSt stPollB
        else { s with thr := s.cfg.throttleCycles }.setSt stThrottle
      else { s with tx := { s.tx with idx := s.tx.idx + 1 } }) := by
  rw [exec, execSTxB, value]
  cases ready : s.pins.bTxReady <;> rfl

theorem exec_sTxB_wait {b : Byte} (value : s.frameByte = some b) (notReady : s.pins.bTxReady = false) :
    exec .sTxB s = .next s := by
  rw [exec_sTxB_of_byte value, if_pos notReady]

theorem exec_sTxB_more {b : Byte} (value : s.frameByte = some b) (ready : s.pins.bTxReady = true)
    (before : s.tx.idx ≠ s.tx.len) : exec .sTxB s = .next { s with tx := { s.tx with idx := s.tx.idx + 1 } } := by
  rw [exec_sTxB_of_byte value, if_neg (ne_false_of_eq_true ready), if_neg before]

theorem exec_sTxB_end {b : Byte} (value : s.frameByte = some b) (ready : s.pins.bTxReady = true)
    (atEnd : s.tx.idx = s.tx.len) :
    exec .sTxB s = .next (if s.cfg.throttleCycles = 0 then s.setSt stPollB
      else { s with thr := s.cfg.throttleCycles }.setSt stThrottle) := by
  rw [exec_sTxB_of_byte value, if_neg (ne_false_of_eq_true ready), if_pos atEnd]

theorem exec_sTxB_of_none (noValue : s.frameByte = none) : exec .sTxB s = .fault .noValueRead := by
  rw [exec, execSTxB, noValue]

theorem exec_sTxB_next (answers : exec .sTxB s = .next u) :
    u = s ∨
    (s.tx.idx = s.tx.len ∧ s.cfg.throttleCycles = 0 ∧ u = s.setSt stPollB) ∨
    (s.tx.idx = s.tx.len ∧ s.cfg.throttleCycles ≠ 0 ∧ u = { s with thr := s.cfg.throttleCycles }.setSt stThrottle) ∨
    (s.tx.idx ≠ s.tx.len ∧ u = { s with tx := { s.tx with idx := s.tx.idx + 1 } }) := by
  cases value : s.frameByte with
  | none =>
    rw [exec_sTxB_of_none value] at answers
    cases answers
  | some b =>
    rw [exec_sTxB_of_byte value, Host.Outcome.next.injEq] at answers
    split at answers
    next => exact .inl answers.symm
    next =>
      split at answers
      next atEnd =>
        split at answers
        next zero => exact .inr (.inl ⟨atEnd, zero, answers.symm⟩)
        next some => exact .inr (.inr (.inl ⟨atEnd, some, answers.symm⟩))
      next before => exact .inr (.inr (.inr ⟨before, answers.symm⟩))

theorem exec_sThrottle_of_zero (zero : s.thr = 0) : exec .sThrottle s = .fault .throttleZero := by
  rw [exec, execSThrottle, if_pos zero]

theorem exec_sThrottle_of_one (one : s.thr = 1) : exec .sThrottle s = .next ({ s with thr := 0 }.setSt stPollB) := by
  rw [exec, execSThrottle, if_neg (by rw [one]; decide), if_pos one]

theorem exec_sThrottle_of_more (more : 2 ≤ s.thr.toNat) : exec .sThrottle s = .next { s with thr := s.thr - 1 } := by
  have notZero : s.thr ≠ 0 := fun zero => by rw [zero] at more; exact absurd more (by decide)
  have notOne : s.thr ≠ 1 := fun one => by rw [one] at more; exact absurd more (by decide)
  rw [exec, execSThrottle, if_neg notZero, if_neg notOne]

theorem toNat_pred_of_two_le {v : Count32} (more : 2 ≤ v.toNat) : (v - 1).toNat = v.toNat - 1 := by
  bv_omega

theorem exec_sThrottle_next (answers : exec .sThrottle s = .next u) :
    (s.thr = 1 ∧ u = { s with thr := 0 }.setSt stPollB) ∨ (2 ≤ s.thr.toNat ∧ u = { s with thr := s.thr - 1 }) := by
  by_cases zero : s.thr = 0
  · rw [exec_sThrottle_of_zero zero] at answers
    cases answers
  by_cases one : s.thr = 1
  · rw [exec_sThrottle_of_one one] at answers
    exact .inl ⟨one, (Host.Outcome.next.inj answers).symm⟩
  · have more : 2 ≤ s.thr.toNat := by bv_omega
    rw [exec_sThrottle_of_more more] at answers
    exact .inr ⟨more, (Host.Outcome.next.inj answers).symm⟩

theorem exec_sTxA_of_byte {b : Byte} (value : s.replyByte = some b) :
    exec .sTxA s = .next (
      if s.pins.aTxReady = false then s
      else if s.tx.idx = s.tx.len then s.setSt stPollA
      else { s with tx := { s.tx with idx := s.tx.idx + 1 } }) := by
  rw [exec, execSTxA, value]
  cases ready : s.pins.aTxReady <;> rfl

theorem exec_sTxA_wait {b : Byte} (value : s.replyByte = some b) (notReady : s.pins.aTxReady = false) :
    exec .sTxA s = .next s := by
  rw [exec_sTxA_of_byte value, if_pos notReady]

theorem exec_sTxA_more {b : Byte} (value : s.replyByte = some b) (ready : s.pins.aTxReady = true)
    (before : s.tx.idx ≠ s.tx.len) : exec .sTxA s = .next { s with tx := { s.tx with idx := s.tx.idx + 1 } } := by
  rw [exec_sTxA_of_byte value, if_neg (ne_false_of_eq_true ready), if_neg before]

theorem exec_sTxA_end {b : Byte} (value : s.replyByte = some b) (ready : s.pins.aTxReady = true)
    (atEnd : s.tx.idx = s.tx.len) : exec .sTxA s = .next (s.setSt stPollA) := by
  rw [exec_sTxA_of_byte value, if_neg (ne_false_of_eq_true ready), if_pos atEnd]

theorem exec_sTxA_of_none (noValue : s.replyByte = none) : exec .sTxA s = .fault .noValueRead := by
  rw [exec, execSTxA, noValue]

theorem exec_sTxA_next (answers : exec .sTxA s = .next u) :
    u = s ∨ (s.tx.idx = s.tx.len ∧ u = s.setSt stPollA) ∨
    (s.tx.idx ≠ s.tx.len ∧ u = { s with tx := { s.tx with idx := s.tx.idx + 1 } }) := by
  cases value : s.replyByte with
  | none =>
    rw [exec_sTxA_of_none value] at answers
    cases answers
  | some b =>
    rw [exec_sTxA_of_byte value, Host.Outcome.next.injEq] at answers
    split at answers
    next => exact .inl answers.symm
    next =>
      split at answers
      next atEnd => exact .inr (.inl ⟨atEnd, answers.symm⟩)
      next before => exact .inr (.inr ⟨before, answers.symm⟩)

theorem exec_stop_next {st : BitVec 4} {i : Instr} (named : Names st i) (stop : st = stStopClean ∨ st = stStopError) :
    exec i s = .next s.clearReport := by
  cases named with
  | stopClean | stopError => rfl
  | pollA | rxA | enc | pollQ | txB | throttle | pollB | rxB | txA => exact absurd stop (by decide)

end Next

/-- Settles O10. -/
theorem stopCleanChangesOnlyReportValid : Obligations.StopCleanChangesOnlyReportValid :=
  ⟨rfl, fun _ => exec_stop_next .stopClean (.inl rfl)⟩

/-- Settles O11. -/
theorem stopErrorChangesOnlyReportValid : Obligations.StopErrorChangesOnlyReportValid :=
  ⟨rfl, fun _ => exec_stop_next .stopError (.inr rfl)⟩

/-- The byte that S_TX_B offers has a value where TX.buf holds it. -/
theorem frameByte_isSome {s : State}
    (held : s.tx.idx.toNat < s.tx.len.toNat → ∃ d, s.tx.buf = some d ∧ s.tx.idx.toNat < d.length) :
    ∃ b, s.frameByte = some b := by
  by_cases before : s.tx.idx.toNat < s.tx.len.toNat
  · obtain ⟨d, buf, inside⟩ := held before
    exact ⟨_, (State.frameByte_of_lt before buf).trans (List.getElem?_eq_getElem inside)⟩
  · exact ⟨_, State.frameByte_of_le (not_lt.mp before)⟩

/-- The byte that S_TX_A offers has a value where LBUF holds it. -/
theorem replyByte_isSome {s : State}
    (held : s.tx.idx.toNat < s.tx.len.toNat → (Store.read s.lbuf s.tx.idx.toNat).isSome = true) :
    ∃ b, s.replyByte = some b := by
  by_cases before : s.tx.idx.toNat < s.tx.len.toNat
  · rw [State.replyByte_of_lt before]
    exact Option.isSome_iff_exists.mp (held before)
  · exact ⟨_, State.replyByte_of_le (not_lt.mp before)⟩

/-- Settles O23. -/
theorem txBSendsOneByte : Obligations.TxBSendsOneByte := by
  refine ⟨rfl, fun s held => ?_⟩
  obtain ⟨b, value⟩ := frameByte_isSome held
  exact exec_sTxB_of_byte value

/-- Settles O24. -/
theorem throttleCountsDown : Obligations.ThrottleCountsDown :=
  ⟨rfl, fun _ => ⟨exec_sThrottle_of_zero, exec_sThrottle_of_one,
    fun more => ⟨_, exec_sThrottle_of_more more, rfl, toNat_pred_of_two_le more⟩⟩⟩

/-- Settles O25. -/
theorem txASendsOneByte : Obligations.TxASendsOneByte := by
  refine ⟨rfl, fun s held => ?_⟩
  obtain ⟨b, value⟩ := replyByte_isSome held
  exact exec_sTxA_of_byte value

end Sys2Proof.Machine
end

section
/-! PROOFS. 44_scheduler.md: what every step keeps (R6, R70), where it can go (R255), what it consumes (R71, R90), and the
throttle's spacing (R257). -/

namespace Sys2Proof.Machine

/-! What the end of a line writes. -/

section EndLine
variable (s : State) (r : ByteStep) (o : LineOutcome)

@[simp] theorem State.endLineA_cfg : (s.endLineA r o).cfg = s.cfg := by unfold State.endLineA; split <;> rfl
@[simp] theorem State.endLineA_p : (s.endLineA r o).p = r.p := by unfold State.endLineA; split <;> rfl
@[simp] theorem State.endLineA_lbuf : (s.endLineA r o).lbuf = r.lbuf := by unfold State.endLineA; split <;> rfl
@[simp] theorem State.endLineA_fifo : (s.endLineA r o).fifo = s.fifo := by unfold State.endLineA; split <;> rfl
@[simp] theorem State.endLineA_stopCause : (s.endLineA r o).sch.stopCause = s.sch.stopCause := by
  unfold State.endLineA; split <;> rfl
theorem State.endLineA_rpt :
    (s.endLineA r o).rpt =
      { valid := true, link := 0, kind := o.kind, index := o.index, offset := o.offset, count := o.count } := by
  unfold State.endLineA; split <;> rfl
theorem State.endLineA_st : (s.endLineA r o).sch.st = if o.kind = kCmdOk then stEnc else stPollQ := by
  unfold State.endLineA; split <;> rfl

@[simp] theorem State.endLineB_cfg : (s.endLineB r o).cfg = s.cfg := by unfold State.endLineB; split <;> rfl
@[simp] theorem State.endLineB_p : (s.endLineB r o).p = r.p := by unfold State.endLineB; split <;> rfl
@[simp] theorem State.endLineB_lbuf : (s.endLineB r o).lbuf = r.lbuf := by unfold State.endLineB; split <;> rfl
@[simp] theorem State.endLineB_fifo : (s.endLineB r o).fifo = s.fifo := by unfold State.endLineB; split <;> rfl
@[simp] theorem State.endLineB_stopCause : (s.endLineB r o).sch.stopCause = s.sch.stopCause := by
  unfold State.endLineB; split <;> rfl
theorem State.endLineB_rpt :
    (s.endLineB r o).rpt =
      { valid := true, link := 1, kind := o.kind, index := o.index, offset := o.offset, count := o.count } := by
  unfold State.endLineB; split <;> rfl
theorem State.endLineB_st : (s.endLineB r o).sch.st = if o.kind = kReplyOk then stTxA else stPollA := by
  unfold State.endLineB; split <;> rfl

end EndLine

/-! Every way a step answers, with whole lines read out (R240; log 3). -/

/-- The next states: after a reset, in a stop state just entered, after the operation SCH.st names, or after a whole line. -/
inductive Stepped (s : State) : State → Prop
  | reset (resetting : s.pins.rst = true) : Stepped s ((doReset s).after s 1)
  | stop {v : BitVec 4} (stops : v = stStopClean ∨ v = stStopError) (aErr bErr : Bool) (running : s.stopped = false) :
      Stepped s ((enterStop s v aErr bErr).after s 1)
  | sched {i : Instr} {u : State} (named : Names s.sch.st i) (answers : exec i s.clearReport = .next u) :
      Stepped s (u.after s 1)
  | lineA {content : List Byte} {r : ByteStep} (wf : lineWf content = true) (polls : s.sch.st = stPollA)
      (admitted : fifoAdmits s = true) (line : ReadsCommand s.cfg s.lbuf content r) :
      Stepped s ((s.clearReport.endLineA r ((parseCmd s.cfg content).outcome s.cfg)).after s (content.length + 2))
  | lineB {content : List Byte} {r : ByteStep} (wf : lineWf content = true) (polls : s.sch.st = stPollB)
      (line : ReadsReply s.cfg s.lbuf content r) :
      Stepped s ((s.clearReport.endLineB r (parseReply s.cfg content).outcome).after s (content.length + 2))

theorem stepped_of_step {s t : State} (stepped : step s = .next t) : legalConfig s.cfg = true ∧ Stepped s t := by
  obtain ⟨legal, ⟨resetting, rfl⟩ | ⟨-, running, -, rfl⟩ | ⟨-, running, -, -, -, rfl⟩ | ⟨-, -, i, u, decoded, answers, rfl⟩⟩ :=
    step_next_cases stepped
  · exact ⟨legal, .reset resetting⟩
  · exact ⟨legal, .stop (.inr rfl) _ _ running⟩
  · exact ⟨legal, .stop (.inl rfl) _ _ running⟩
  · refine ⟨legal, ?_⟩
    cases fetched_of_decode decoded with
    | sched named =>
      rw [named.cycles]
      exact .sched named answers
    | lineA _ wf polls admitted =>
      obtain ⟨r, line, does⟩ := exec_lineInstrA (s := s.clearReport) legal wf
      obtain rfl := Host.Outcome.next.inj (does.symm.trans answers)
      rw [length_lineInstrA_content]
      exact .lineA wf polls admitted line
    | lineB _ wf polls =>
      obtain ⟨r, line, does⟩ := exec_lineInstrB (s := s.clearReport) legal wf
      obtain rfl := Host.Outcome.next.inj (does.symm.trans answers)
      rw [length_lineInstrB_content]
      exact .lineB wf polls line

/-! The configuration (R6). -/

theorem Names.next_cfg {st : BitVec 4} {i : Instr} {s u : State} (named : Names st i) (answers : exec i s = .next u) :
    u.cfg = s.cfg := by
  cases named with
  | pollA => obtain ⟨-, -, rfl⟩ | rfl := exec_sPollA_next answers <;> rfl
  | pollB => obtain rfl | rfl := exec_sPollB_next answers <;> rfl
  | rxA =>
    obtain ⟨-, rfl⟩ | ⟨r, -, ⟨-, rfl⟩ | ⟨-, rfl⟩⟩ := exec_sRxA_next answers
    · rfl
    · rfl
    · exact State.endLineA_cfg ..
  | rxB =>
    obtain ⟨-, rfl⟩ | ⟨r, -, ⟨-, rfl⟩ | ⟨-, rfl⟩⟩ := exec_sRxB_next answers
    · rfl
    · rfl
    · exact State.endLineB_cfg ..
  | enc =>
    obtain ⟨f, t, -, -, pushed, ended⟩ := exec_sEnc_next answers
    have kept := fifoPush_cfg pushed
    obtain ⟨-, rfl⟩ | ⟨-, rfl⟩ := ended <;> exact kept
  | pollQ =>
    obtain ⟨-, rfl⟩ | ⟨f, t, popped, rfl⟩ := exec_sPollQ_next answers
    · rfl
    · have kept := fifoPop_cfg popped
      exact kept
  | txB => obtain rfl | ⟨-, -, rfl⟩ | ⟨-, -, rfl⟩ | ⟨-, rfl⟩ := exec_sTxB_next answers <;> rfl
  | throttle => obtain ⟨-, rfl⟩ | ⟨-, rfl⟩ := exec_sThrottle_next answers <;> rfl
  | txA => obtain rfl | ⟨-, rfl⟩ | ⟨-, rfl⟩ := exec_sTxA_next answers <;> rfl
  | stopClean | stopError => cases answers; rfl

/-- Settles O15: reset and stop entry keep the parameters, and so does every operation. -/
theorem configurationNeverChanges : Obligations.ConfigurationNeverChanges := by
  intro s t stepped
  cases (stepped_of_step stepped).2 with
  | reset | stop => rfl
  | sched named answers =>
    have kept := named.next_cfg answers
    exact kept
  | lineA => exact State.endLineA_cfg ..
  | lineB => exact State.endLineB_cfg ..

/-! The storages' canonical form (R70). -/

/-- What every byte step keeps, a run of byte steps keeps. -/
theorem runBytes_keeps {P : Parser → Memory → Prop} {f : Parser → Memory → Byte → Except Fault ByteStep}
    (keeps : ∀ {p m b r}, P p m → f p m b = .ok r → P r.p r.lbuf) {p : Parser} {m : Memory} {bs : List Byte} {r : ByteStep}
    (now : P p m) (ran : runBytes f p m bs = .ok r) : P r.p r.lbuf := by
  induction bs generalizing p m with
  | nil =>
    cases ran
    exact now
  | cons b bs ih =>
    cases bs with
    | nil => exact keeps now ran
    | cons b' bs =>
      rw [runBytes] at ran
      split at ran
      · cases ran
      next step => exact ih (keeps now step) ran

/-- Both storages in canonical form. -/
def State.Canonical (s : State) : Prop := Store.wf s.lbuf = true ∧ Store.wf s.fifo.mem = true

theorem Names.next_canonical {st : BitVec 4} {i : Instr} {s u : State} (named : Names st i) (answers : exec i s = .next u)
    (canonical : s.Canonical) : u.Canonical := by
  obtain ⟨lbuf, mem⟩ := canonical
  cases named with
  | pollA => obtain ⟨-, -, rfl⟩ | rfl := exec_sPollA_next answers <;> exact ⟨lbuf, mem⟩
  | pollB => obtain rfl | rfl := exec_sPollB_next answers <;> exact ⟨lbuf, mem⟩
  | rxA =>
    obtain ⟨-, rfl⟩ | ⟨r, stepped, ended⟩ := exec_sRxA_next answers
    · exact ⟨lbuf, mem⟩
    have after := LineMode.step_lbuf_wf (cmdMode_lawful s.cfg) stepped lbuf
    obtain ⟨-, rfl⟩ | ⟨-, rfl⟩ := ended
    · exact ⟨after, mem⟩
    · exact ⟨by rwa [State.endLineA_lbuf], by rwa [State.endLineA_fifo]⟩
  | rxB =>
    obtain ⟨-, rfl⟩ | ⟨r, stepped, ended⟩ := exec_sRxB_next answers
    · exact ⟨lbuf, mem⟩
    have after := LineMode.step_lbuf_wf (repMode_lawful s.cfg) stepped lbuf
    obtain ⟨-, rfl⟩ | ⟨-, rfl⟩ := ended
    · exact ⟨after, mem⟩
    · exact ⟨by rwa [State.endLineB_lbuf], by rwa [State.endLineB_fifo]⟩
  | enc =>
    obtain ⟨f, t, -, -, pushed, ended⟩ := exec_sEnc_next answers
    obtain ⟨-, -, rfl⟩ := fifoPush_ok pushed
    obtain ⟨-, rfl⟩ | ⟨-, rfl⟩ := ended <;> exact ⟨lbuf, Store.write_wf _ f mem⟩
  | pollQ =>
    obtain ⟨-, rfl⟩ | ⟨f, t, popped, rfl⟩ := exec_sPollQ_next answers
    · exact ⟨lbuf, mem⟩
    · obtain ⟨-, -, -, rfl⟩ := fifoPop_ok popped
      exact ⟨lbuf, mem⟩
  | txB => obtain rfl | ⟨-, -, rfl⟩ | ⟨-, -, rfl⟩ | ⟨-, rfl⟩ := exec_sTxB_next answers <;> exact ⟨lbuf, mem⟩
  | throttle => obtain ⟨-, rfl⟩ | ⟨-, rfl⟩ := exec_sThrottle_next answers <;> exact ⟨lbuf, mem⟩
  | txA => obtain rfl | ⟨-, rfl⟩ | ⟨-, rfl⟩ := exec_sTxA_next answers <;> exact ⟨lbuf, mem⟩
  | stopClean | stopError => cases answers; exact ⟨lbuf, mem⟩

theorem ReadsCommand.lbuf_wf {c : Config} {m : Memory} {content : List Byte} {r : ByteStep} (line : ReadsCommand c m content r)
    (canonical : Store.wf m = true) : Store.wf r.lbuf = true :=
  runBytes_keeps (P := fun _ l => Store.wf l = true)
    (fun before stepped => LineMode.step_lbuf_wf (cmdMode_lawful c) stepped before) canonical line.run

theorem ReadsReply.lbuf_wf {c : Config} {m : Memory} {content : List Byte} {r : ByteStep} (line : ReadsReply c m content r)
    (canonical : Store.wf m = true) : Store.wf r.lbuf = true :=
  runBytes_keeps (P := fun _ l => Store.wf l = true)
    (fun before stepped => LineMode.step_lbuf_wf (repMode_lawful c) stepped before) canonical line.run

/-- Settles O59: reset empties the storages, a stop entry leaves them, and every operation only writes canonically. -/
theorem storagesStayCanonical : Obligations.StoragesStayCanonical := by
  intro s t lbuf mem stepped
  cases (stepped_of_step stepped).2 with
  | reset => exact ⟨rfl, rfl⟩
  | stop => exact ⟨lbuf, mem⟩
  | sched named answers =>
    have kept := named.next_canonical answers ⟨lbuf, mem⟩
    exact kept
  | lineA _ _ _ line =>
    rw [State.after_lbuf, State.after_fifo, State.endLineA_lbuf, State.endLineA_fifo]
    exact ⟨line.lbuf_wf lbuf, mem⟩
  | lineB _ _ line =>
    rw [State.after_lbuf, State.after_fifo, State.endLineB_lbuf, State.endLineB_fifo]
    exact ⟨line.lbuf_wf lbuf, mem⟩

/-! The state graph (R255). -/

/-- An operation goes along a pair of the table, or, in a stop state, stays. -/
theorem Names.next_pair {i : Instr} {s u : State} (named : Names s.sch.st i) (answers : exec i s = .next u) :
    (s.sch.st, u.sch.st) ∈ schedPairs ∨ (s.stopped = true ∧ u.sch.st = s.sch.st) := by
  rw [s.stopped_iff]
  generalize code : s.sch.st = st at named
  cases named with
  | pollA => obtain ⟨-, -, rfl⟩ | rfl := exec_sPollA_next answers <;> exact .inl (by simp only [State.setSt_sch]; decide)
  | pollB => obtain rfl | rfl := exec_sPollB_next answers <;> exact .inl (by simp only [State.setSt_sch]; decide)
  | rxA =>
    obtain ⟨-, rfl⟩ | ⟨r, -, ⟨-, rfl⟩ | ⟨-, rfl⟩⟩ := exec_sRxA_next answers
    · exact .inl (by rw [code]; decide)
    · exact .inl (by dsimp only; rw [code]; decide)
    · rw [State.endLineA_st]
      split <;> exact .inl (by decide)
  | rxB =>
    obtain ⟨-, rfl⟩ | ⟨r, -, ⟨-, rfl⟩ | ⟨-, rfl⟩⟩ := exec_sRxB_next answers
    · exact .inl (by rw [code]; decide)
    · exact .inl (by dsimp only; rw [code]; decide)
    · rw [State.endLineB_st]
      split <;> exact .inl (by decide)
  | enc =>
    obtain ⟨f, t, -, -, pushed, ended⟩ := exec_sEnc_next answers
    obtain ⟨-, -, rfl⟩ := fifoPush_ok pushed
    obtain ⟨-, rfl⟩ | ⟨-, rfl⟩ := ended
    · exact .inl (by simp only [State.setSt_sch]; decide)
    · exact .inl (by dsimp only; rw [code]; decide)
  | pollQ => obtain ⟨-, rfl⟩ | ⟨f, t, -, rfl⟩ := exec_sPollQ_next answers <;> exact .inl (by simp only [State.setSt_sch]; decide)
  | txB =>
    obtain rfl | ⟨-, -, rfl⟩ | ⟨-, -, rfl⟩ | ⟨-, rfl⟩ := exec_sTxB_next answers
    · exact .inl (by rw [code]; decide)
    · exact .inl (by simp only [State.setSt_sch]; decide)
    · exact .inl (by simp only [State.setSt_sch]; decide)
    · exact .inl (by dsimp only; rw [code]; decide)
  | throttle =>
    obtain ⟨-, rfl⟩ | ⟨-, rfl⟩ := exec_sThrottle_next answers
    · exact .inl (by simp only [State.setSt_sch]; decide)
    · exact .inl (by dsimp only; rw [code]; decide)
  | txA =>
    obtain rfl | ⟨-, rfl⟩ | ⟨-, rfl⟩ := exec_sTxA_next answers
    · exact .inl (by rw [code]; decide)
    · exact .inl (by simp only [State.setSt_sch]; decide)
    · exact .inl (by dsimp only; rw [code]; decide)
  | stopClean =>
    cases answers
    exact .inr ⟨.inl rfl, code⟩
  | stopError =>
    cases answers
    exact .inr ⟨.inr rfl, code⟩

theorem enterStop_stopped {v : BitVec 4} (stop : v = stStopClean ∨ v = stStopError) (s : State) (aErr bErr : Bool) (n : Nat) :
    ((enterStop s v aErr bErr).after s n).stopped = true :=
  (State.stopped_iff _).mpr stop

/-- Settles O26: the steps of one clock cycle are those that take no whole line. -/
theorem stateGraphIsTheTables : Obligations.StateGraphIsTheTables := by
  intro s t stepped noReset oneCycle
  cases (stepped_of_step stepped).2 with
  | reset resetting =>
    rw [noReset] at resetting
    cases resetting
  | stop stops _ _ running => exact .inr (.inl ⟨running, enterStop_stopped stops ..⟩)
  | sched named answers =>
    obtain pair | stays := Names.next_pair (s := s.clearReport) named answers
    · exact .inl pair
    · exact .inr (.inr stays)
  | lineA | lineB =>
    have long := Nat.add_left_cancel oneCycle
    omega

/-! The waits (R260). -/

/-- An edge in a state that polls no link performs that state's operation, whatever the environment's form. -/
theorem step_own {s u : State} {i : Instr} (legal : legalConfig s.cfg = true) (quiet : calm s.pins = true)
    (named : Names s.sch.st i) (notA : s.sch.st ≠ stPollA) (notB : s.sch.st ≠ stPollB)
    (answers : exec i s.clearReport = .next u) : step s = .next (u.after s 1) := by
  have decoded : decode s.fetch = .ok i := by
    rw [fetch_of_not_polling notA notB]
    exact named.decodeSched
  rw [step_of_decoded legal ((calm_iff _).mp quiet).1 (fun _ => quiet) decoded, answers, named.cycles]
  rfl

/-- Settles O27: in each of the four waits the operation leaves the state it was given. -/
theorem waitsChangeNothingButTheReportPulse : Obligations.WaitsChangeNothingButTheReportPulse := by
  intro s legal quiet waits
  suffices stays : step s = .next (s.clearReport.after s 1) from ⟨_, stays, rfl, rfl, rfl, rfl, rfl⟩
  obtain ⟨code, idle⟩ | ⟨code, idle⟩ | ⟨code, notReady, value⟩ | ⟨code, notReady, value⟩ := waits
  · have code : s.sch.st = stRxA := code
    exact step_own legal quiet (.of_eq code .rxA) (by rw [code]; decide) (by rw [code]; decide) (exec_sRxA_of_no_byte idle)
  · have code : s.sch.st = stRxB := code
    exact step_own legal quiet (.of_eq code .rxB) (by rw [code]; decide) (by rw [code]; decide) (exec_sRxB_of_no_byte idle)
  · have code : s.sch.st = stTxB := code
    rw [State.outputs_bTxData_of_txB code] at value
    obtain ⟨b, value⟩ := Option.ne_none_iff_exists'.mp value
    have answers := exec_sTxB_wait (s := s.clearReport) value notReady
    exact step_own legal quiet (.of_eq code .txB) (by rw [code]; decide) (by rw [code]; decide) answers
  · have code : s.sch.st = stTxA := code
    rw [State.outputs_aTxData_of_txA code] at value
    obtain ⟨b, value⟩ := Option.ne_none_iff_exists'.mp value
    have answers := exec_sTxA_wait (s := s.clearReport) value notReady
    exact step_own legal quiet (.of_eq code .txA) (by rw [code]; decide) (by rw [code]; decide) answers

/-! The bytes a step consumes (R71, R90). -/

/-- Every step moves the environment on by `restStim`. -/
theorem step_next_stim {s t : State} (stepped : step s = .next t) : t.stim = s.restStim := by
  obtain ⟨-, ⟨-, rfl⟩ | ⟨-, -, -, rfl⟩ | ⟨-, -, -, -, -, rfl⟩ | ⟨-, -, i, u, -, -, rfl⟩⟩ := step_next_cases stepped <;> rfl

theorem keepA_eq (left : List Byte) (rest : List Stimulus) :
    keepA left rest = if left = [] then rest else .bytesA left :: rest := by
  cases left <;> rfl

theorem keepB_eq (left : List Byte) (rest : List Stimulus) :
    keepB left rest = if left = [] then rest else .bytesB left :: rest := by
  cases left <;> rfl

/-- A line taken whole is the bytes before those after it. -/
theorem take_append_afterLine {bytes content left : List Byte} (split : splitLine bytes = some (content, left)) :
    bytes = bytes.take (bytes.length - (afterLine bytes).length) ++ afterLine bytes := by
  have after : afterLine bytes = left := by rw [afterLine, split]
  obtain ⟨rfl, -⟩ := splitLine_eq_some split
  have line : content ++ termByte :: left = (content ++ [termByte]) ++ left := by simp
  rw [after, line, List.length_append, Nat.add_sub_cancel, List.take_left]

section Offer
variable {s : State} {bytes : List Byte} {rest : List Stimulus}

/-- LINK-A's offer is its first byte, and LINK-B offers nothing. -/
theorem moves_of_bytesA (offers : s.stim = .bytesA bytes :: rest) :
    s.moves.aRx = (if s.sch.st = stRxA then bytes.head? else none) ∧ s.moves.bRx = none := by
  cases bytes with
  | nil =>
    have pins : s.pins = eagerPins := by rw [State.pins, offers]
    simp [State.moves, State.outputs, pins, eagerPins, Pins.quiet]
  | cons b bs =>
    have pins : s.pins = offerA b := by rw [State.pins, offers]
    simp [State.moves, State.outputs, pins, eagerPins, offerA, Pins.quiet]

/-- LINK-B's offer is its first byte, and LINK-A offers nothing. -/
theorem moves_of_bytesB (offers : s.stim = .bytesB bytes :: rest) :
    s.moves.bRx = (if s.sch.st = stRxB then bytes.head? else none) ∧ s.moves.aRx = none := by
  cases bytes with
  | nil =>
    have pins : s.pins = eagerPins := by rw [State.pins, offers]
    simp [State.moves, State.outputs, pins, eagerPins, Pins.quiet]
  | cons b bs =>
    have pins : s.pins = offerB b := by rw [State.pins, offers]
    simp [State.moves, State.outputs, pins, eagerPins, offerB, Pins.quiet]

theorem consumed_of_bytesA (offers : s.stim = .bytesA bytes :: rest) :
    ∃ left, bytes = s.consumedA ++ left ∧ s.consumedB = [] ∧ s.restStim = keepA left rest := by
  obtain ⟨moved, other⟩ := moves_of_bytesA offers
  have noB : s.consumedB = [] := by simp only [State.consumedB, offers, other, Option.toList_none]
  simp only [State.consumedA, State.restStim, offers, moved]
  by_cases takes : s.takesLineA bytes = true
  · obtain ⟨-, -, content, left, split⟩ := (takesLineA_iff s bytes).mp takes
    simp only [takes, if_true]
    exact ⟨_, take_append_afterLine split, noB, rfl⟩
  · simp only [takes, Bool.false_eq_true, if_false]
    by_cases receives : s.sch.st = stRxA
    · simp only [receives, if_true]
      exact ⟨bytes.tail, by cases bytes <;> rfl, noB, rfl⟩
    · simp only [receives, if_false]
      exact ⟨bytes, rfl, noB, rfl⟩

theorem consumed_of_bytesB (offers : s.stim = .bytesB bytes :: rest) :
    ∃ left, bytes = s.consumedB ++ left ∧ s.consumedA = [] ∧ s.restStim = keepB left rest := by
  obtain ⟨moved, other⟩ := moves_of_bytesB offers
  have noA : s.consumedA = [] := by simp only [State.consumedA, offers, other, Option.toList_none]
  simp only [State.consumedB, State.restStim, offers, moved]
  by_cases takes : s.takesLineB bytes = true
  · obtain ⟨-, content, left, split⟩ := (takesLineB_iff s bytes).mp takes
    simp only [takes, if_true]
    exact ⟨_, take_append_afterLine split, noA, rfl⟩
  · simp only [takes, Bool.false_eq_true, if_false]
    by_cases receives : s.sch.st = stRxB
    · simp only [receives, if_true]
      exact ⟨bytes.tail, by cases bytes <;> rfl, noA, rfl⟩
    · simp only [receives, if_false]
      exact ⟨bytes, rfl, noA, rfl⟩

end Offer

/-- Settles O39. -/
theorem offeredBytesAreConsumedInOrder : Obligations.OfferedBytesAreConsumedInOrder := by
  intro s t bytes rest stepped
  rw [step_next_stim stepped]
  constructor
  · intro offers
    obtain ⟨left, order, other, keeps⟩ := consumed_of_bytesA offers
    exact ⟨left, order, other, keeps.trans (keepA_eq left rest)⟩
  · intro offers
    obtain ⟨left, order, other, keeps⟩ := consumed_of_bytesB offers
    exact ⟨left, order, other, keeps.trans (keepB_eq left rest)⟩

end Sys2Proof.Machine
end

section
/-! PROOFS. 44_scheduler.md and 60_exceptions.md: runs of clock edges in one state: the stop states (R300), the throttle (R250,
R257), the transmit states (R249, R253) and S_ENC (R170). -/

namespace Sys2Proof.Machine

/-! A run, step by step. -/

theorem run_succ {s t : State} (n : Nat) (stepped : step s = .next t) : core.run (n + 1) s = core.run n t := by
  have stepped : core.step s = .next t := stepped
  simp only [Host.Core.run, stepped]

theorem run_succ_next {s t : State} {n : Nat} (ran : core.run (n + 1) s = .next t) :
    ∃ u, step s = .next u ∧ core.run n u = .next t := by
  cases stepped : step s with
  | next u => exact ⟨u, rfl, (run_succ n stepped).symm.trans ran⟩
  | fault e =>
    have stepped : core.step s = .fault e := stepped
    simp only [Host.Core.run, stepped, reduceCtorEq] at ran
  | refused r =>
    have stepped : core.step s = .refused r := stepped
    simp only [Host.Core.run, stepped, reduceCtorEq] at ran

theorem sentA_succ {s t : State} (n : Nat) (stepped : step s = .next t) :
    sentA (n + 1) s = s.moves.aTx.toList ++ sentA n t := by
  rw [sentA, stepped]

theorem sentB_succ {s t : State} (n : Nat) (stepped : step s = .next t) :
    sentB (n + 1) s = s.moves.bTx.toList ++ sentB n t := by
  rw [sentB, stepped]

/-! The bytes that move on the transmit streams at an edge (R71, R24, R25). -/

theorem State.moves_bTx_of_ready {s : State} (sending : s.sch.st = stTxB) (ready : s.pins.bTxReady = true) :
    s.moves.bTx = s.frameByte := by
  simp only [State.moves, s.outputs_bTxValid_iff.mpr sending, ready, Bool.and_self, if_true,
    State.outputs_bTxData_of_txB sending]

theorem State.moves_aTx_of_ready {s : State} (sending : s.sch.st = stTxA) (ready : s.pins.aTxReady = true) :
    s.moves.aTx = s.replyByte := by
  simp only [State.moves, s.outputs_aTxValid_iff.mpr sending, ready, Bool.and_self, if_true,
    State.outputs_aTxData_of_txA sending]

theorem State.moves_bTx_of_ne {s : State} (elsewhere : s.sch.st ≠ stTxB) : s.moves.bTx = none := by
  have silent : s.outputs.bTxValid = false := Bool.eq_false_iff.mpr (mt s.outputs_bTxValid_iff.mp elsewhere)
  simp only [State.moves, silent, Bool.false_and, Bool.false_eq_true, if_false]

theorem State.moves_aTx_of_ne {s : State} (elsewhere : s.sch.st ≠ stTxA) : s.moves.aTx = none := by
  have silent : s.outputs.aTxValid = false := Bool.eq_false_iff.mpr (mt s.outputs_aTxValid_iff.mp elsewhere)
  simp only [State.moves, silent, Bool.false_and, Bool.false_eq_true, if_false]

/-! The stop states (R296, R297, R300). -/

theorem step_stopped_edge {s : State} {p : Pins} {rest : List Stimulus} (legal : legalConfig s.cfg = true)
    (stopped : s.stopped = true) (noReset : p.rst = false) (offers : s.stim = .edge p :: rest) :
    step s = .next (s.clearReport.after s 1) := by
  have noStop : s.stopped = false → calm p = true := fun running => by rw [stopped] at running; cases running
  obtain code | code := s.stopped_iff.mp stopped
  · exact step_edge legal offers noReset noStop (.of_eq code .stopClean) rfl
  · exact step_edge legal offers noReset noStop (.of_eq code .stopError) rfl

theorem stopped_not_streaming {s : State} (stopped : s.stopped = true) :
    s.sch.st ≠ stRxA ∧ s.sch.st ≠ stTxA ∧ s.sch.st ≠ stRxB ∧ s.sch.st ≠ stTxB := by
  obtain code | code := s.stopped_iff.mp stopped <;> rw [code] <;> decide

theorem sent_of_stopped {ps : List Pins} {s : State} {rest : List Stimulus} (legal : legalConfig s.cfg = true)
    (stopped : s.stopped = true) (noReset : ∀ p ∈ ps, p.rst = false) (offers : s.stim = ps.map Stimulus.edge ++ rest) :
    sentA ps.length s = [] ∧ sentB ps.length s = [] := by
  induction ps generalizing s with
  | nil => exact ⟨rfl, rfl⟩
  | cons p ps ih =>
    obtain ⟨-, txA, -, txB⟩ := stopped_not_streaming stopped
    obtain ⟨first, others⟩ := List.forall_mem_cons.mp noReset
    have stepped := step_stopped_edge legal stopped first offers
    obtain ⟨restA, restB⟩ := ih (s := s.clearReport.after s 1) legal stopped others (restStim_edge offers)
    rw [List.length_cons, sentA_succ _ stepped, sentB_succ _ stepped, State.moves_aTx_of_ne txA, State.moves_bTx_of_ne txB,
      restA, restB]
    exact ⟨rfl, rfl⟩

theorem run_of_stopped {ps : List Pins} {s : State} {rest : List Stimulus} (legal : legalConfig s.cfg = true)
    (stopped : s.stopped = true) (noReset : ∀ p ∈ ps, p.rst = false) (offers : s.stim = ps.map Stimulus.edge ++ rest) :
    core.run ps.length s = .next { s with
      rpt := { s.rpt with valid := if ps = [] then s.rpt.valid else false }
      stim := rest, cycle := s.cycle + ps.length } := by
  induction ps generalizing s with
  | nil =>
    have offers : s.stim = rest := offers
    rw [← offers]
    rfl
  | cons p ps ih =>
    obtain ⟨first, others⟩ := List.forall_mem_cons.mp noReset
    have stepped := step_stopped_edge legal stopped first offers
    have ran := ih (s := s.clearReport.after s 1) legal stopped others (restStim_edge offers)
    rw [List.length_cons, run_succ _ stepped, ran, if_neg (List.cons_ne_nil p ps), State.after_cycle, Nat.add_assoc,
      Nat.add_comm 1, State.after_rpt, State.clearReport_rpt, ite_self]
    rfl

/-- Settles O9. -/
theorem stopStatesAbsorbEveryInputButReset : Obligations.StopStatesAbsorbEveryInputButReset := by
  intro ps s rest legal stopped noReset offers
  obtain ⟨rxA, txA, rxB, txB⟩ := stopped_not_streaming stopped
  refine ⟨run_of_stopped legal stopped noReset offers, State.moves_of_not_streaming rxA txA rxB txB, stopped, stopped, ?_,
    sent_of_stopped legal stopped noReset offers⟩
  obtain code | code := s.stopped_iff.mp stopped <;> simp only [State.outputs, code] <;> rfl

/-! The throttle (R250, R333). -/

section Throttle
variable {s : State} {p : Pins} {rest : List Stimulus} (legal : legalConfig s.cfg = true) (code : s.sch.st = stThrottle)
  (quiet : calm p = true) (offers : s.stim = .edge p :: rest)
include legal code quiet offers

theorem step_throttle_of_one (one : s.thr.toNat = 1) :
    step s = .next (({ s.clearReport with thr := 0 }.setSt stPollB).after s 1) :=
  step_calm_edge legal offers quiet (.of_eq code .throttle)
    (exec_sThrottle_of_one (s := s.clearReport) (BitVec.eq_of_toNat_eq one))

theorem step_throttle_of_more (more : 2 ≤ s.thr.toNat) :
    step s = .next ({ s.clearReport with thr := s.thr - 1 }.after s 1) :=
  step_calm_edge legal offers quiet (.of_eq code .throttle) (exec_sThrottle_of_more (s := s.clearReport) more)

end Throttle

theorem moves_of_throttle {s : State} (code : s.sch.st = stThrottle) :
    s.moves = { aRx := none, aTx := none, bRx := none, bTx := none } := by
  apply State.moves_of_not_streaming <;> rw [code] <;> decide

/-- Settles O53, by induction on the count. -/
theorem throttleLastsItsCount : Obligations.ThrottleLastsItsCount := by
  intro s ps
  induction ps generalizing s with
  | nil =>
    intro _ _ _ some
    cases some
  | cons p ps ih =>
    intro rest legal code _ count quiet offers
    obtain ⟨first, others⟩ := List.forall_mem_cons.mp quiet
    cases ps with
    | nil =>
      have stepped := step_throttle_of_one legal code first offers count
      constructor
      · intro j t before ran
        obtain rfl : j = 0 := Nat.lt_one_iff.mp before
        cases ran
        exact ⟨code, moves_of_throttle code⟩
      · have rest : s.restStim = rest := restStim_edge offers
        rw [← rest]
        exact run_succ 0 stepped
    | cons p' ps =>
      have more : 2 ≤ s.thr.toNat := by rw [count, List.length_cons, List.length_cons]; omega
      have stepped := step_throttle_of_more legal code first offers more
      obtain ⟨during, last⟩ := ih ({ s.clearReport with thr := s.thr - 1 }.after s 1) rest legal code
        (Nat.le_add_left 1 _) ((toNat_pred_of_two_le more).trans (by rw [count]; rfl)) others (restStim_edge offers)
      constructor
      · intro j t before ran
        cases j with
        | zero =>
          cases ran
          exact ⟨code, moves_of_throttle code⟩
        | succ j =>
          rw [run_succ j stepped] at ran
          exact during j t (Nat.lt_of_succ_lt_succ before) ran
      · have length : s.cycle + 1 + (p' :: ps).length = s.cycle + (p :: p' :: ps).length := by
          simp only [List.length_cons]
          omega
        rw [← length]
        exact (run_succ (p' :: ps).length stepped).trans last

/-! How far a state is from S_TX_B (R257). -/

/-- The fewest edges from a scheduler code to S_TX_B, by the state graph, S_THROTTLE left out. -/
def codeGap (st : BitVec 4) : Nat :=
  if st = stPollB ∨ st = stRxB ∨ st = stTxA then 3
  else if st = stPollA ∨ st = stRxA ∨ st = stEnc then 2
  else if st = stPollQ then 1 else 0

/-- The fewest edges to S_TX_B: the throttle's own count comes first. -/
def State.txGap (s : State) : Nat := if s.sch.st = stThrottle then s.thr.toNat + 3 else codeGap s.sch.st

/-- No pair of the state graph comes nearer to S_TX_B by more than one edge. -/
theorem codeGap_le_of_pair : ∀ a b : BitVec 4, (a, b) ∈ schedPairs → a ≠ stThrottle → b ≠ stThrottle →
    codeGap a ≤ codeGap b + 1 := by
  decide

theorem throttle_entered_from : ∀ a : BitVec 4, (a, stThrottle) ∈ schedPairs → a ≠ stThrottle → codeGap a = 0 := by
  decide

theorem Names.unique {st : BitVec 4} {i j : Instr} (named : Names st i) (other : Names st j) : i = j :=
  Except.ok.inj (named.decodeSched.symm.trans other.decodeSched)

theorem Names.txGap_le {i : Instr} {s u : State} (named : Names s.sch.st i) (answers : exec i s = .next u)
    (running : s.stopped = false) : s.txGap ≤ u.txGap + 1 := by
  by_cases code : s.sch.st = stThrottle
  · obtain rfl := named.unique (.of_eq code .throttle)
    rw [State.txGap, if_pos code]
    obtain ⟨one, rfl⟩ | ⟨more, rfl⟩ := exec_sThrottle_next answers
    · have here : State.txGap ({ s with thr := 0 }.setSt stPollB) = 3 := rfl
      rw [one, here]
      decide
    · have here : State.txGap { s with thr := s.thr - 1 } = (s.thr - 1).toNat + 3 := if_pos code
      rw [here, toNat_pred_of_two_le more]
      omega
  · obtain pair | ⟨stopped, -⟩ := named.next_pair answers
    · rw [State.txGap, if_neg code, State.txGap]
      split
      next entered =>
        rw [entered] at pair
        rw [throttle_entered_from _ pair code]
        exact Nat.zero_le _
      next apart => exact codeGap_le_of_pair _ _ pair code apart
    · rw [stopped] at running
      cases running

/-- LINK-B is idle for `n` more cycles at least, short of a reset. -/
def State.IdleFor (n : Nat) (s : State) : Prop := s.stopped = true ∨ n ≤ s.txGap

theorem State.IdleFor.not_txB {s : State} {n : Nat} (idle : s.IdleFor (n + 1)) : s.sch.st ≠ stTxB := by
  intro code
  obtain stopped | far := idle
  · exact (stopped_not_streaming stopped).2.2.2 code
  · rw [State.txGap, code] at far
    exact absurd far (Nat.not_succ_le_zero n)

theorem State.IdleFor.step {s t : State} {n : Nat} (idle : s.IdleFor (n + 1)) (noReset : s.pins.rst = false)
    (stepped : step s = .next t) : t.IdleFor n := by
  cases (stepped_of_step stepped).2 with
  | reset resetting =>
    rw [noReset] at resetting
    cases resetting
  | stop stops => exact .inl (enterStop_stopped stops ..)
  | @sched i u named answers =>
    by_cases stopped : s.stopped = true
    · obtain rfl := Host.Outcome.next.inj ((exec_stop_next named (s.stopped_iff.mp stopped)).symm.trans answers)
      exact .inl stopped
    · have far := idle.resolve_left stopped
      have near := Names.txGap_le (s := s.clearReport) named answers (Bool.eq_false_iff.mpr stopped)
      exact .inr (Nat.le_of_succ_le_succ (far.trans near))
  | @lineA content r _ polls _ _ =>
    have far := idle.resolve_left fun stopped => by
      obtain code | code := s.stopped_iff.mp stopped <;> rw [polls] at code <;> exact absurd code (by decide)
    have near : s.txGap = 2 := by rw [State.txGap, polls]; rfl
    have few : n ≤ 1 := by omega
    refine .inr ?_
    rw [State.txGap, State.after_sch, State.endLineA_st]
    split
    · rw [if_neg (by decide)]
      exact few.trans (by decide)
    · rw [if_neg (by decide)]
      exact few
  | @lineB content r _ polls _ =>
    have far := idle.resolve_left fun stopped => by
      obtain code | code := s.stopped_iff.mp stopped <;> rw [polls] at code <;> exact absurd code (by decide)
    have near : s.txGap = 3 := by rw [State.txGap, polls]; rfl
    have few : n ≤ 2 := by omega
    refine .inr ?_
    rw [State.txGap, State.after_sch, State.endLineB_st]
    split
    · rw [if_neg (by decide)]
      exact few.trans (by decide)
    · rw [if_neg (by decide)]
      exact few

/-- The edge that moves a frame's terminator starts the throttle, or skips it where its count is 0 (R249). -/
theorem State.IdleFor.after_frame {s t : State} (code : s.sch.st = stTxB) (atEnd : s.tx.idx = s.tx.len)
    (quiet : calm s.pins = true) (ready : s.pins.bTxReady = true) (stepped : Machine.step s = .next t) :
    t.IdleFor (s.cfg.throttleCycles.toNat + 3) := by
  have noReset := ((calm_iff _).mp quiet).1
  cases (stepped_of_step stepped).2 with
  | reset resetting =>
    rw [noReset] at resetting
    cases resetting
  | stop stops => exact .inl (enterStop_stopped stops ..)
  | @sched i u named answers =>
    obtain rfl := named.unique (.of_eq code .txB)
    have value : s.clearReport.frameByte = some termByte := State.frameByte_of_le (atEnd ▸ le_rfl)
    rw [exec_sTxB_end value ready atEnd, Host.Outcome.next.injEq] at answers
    refine .inr ?_
    split at answers
    next zero =>
      have zero : s.cfg.throttleCycles = 0 := zero
      rw [← answers, zero]
      exact le_rfl
    next =>
      rw [← answers]
      exact le_rfl
  | lineA _ polls =>
    rw [code] at polls
    exact absurd polls (by decide)
  | lineB _ polls =>
    rw [code] at polls
    exact absurd polls (by decide)

theorem State.IdleFor.run {s t : State} {n j : Nat} {ps : List Pins} {rest : List Stimulus} (idle : s.IdleFor n)
    (noReset : ∀ p ∈ ps, p.rst = false) (offers : s.stim = ps.map Stimulus.edge ++ rest) (before : j < n)
    (given : j ≤ ps.length) (ran : core.run j s = .next t) : t.sch.st ≠ stTxB := by
  induction j generalizing s n ps with
  | zero =>
    cases ran
    obtain ⟨n, rfl⟩ := Nat.exists_eq_succ_of_ne_zero (Nat.ne_of_gt before)
    exact idle.not_txB
  | succ j ih =>
    obtain ⟨n, rfl⟩ := Nat.exists_eq_succ_of_ne_zero (Nat.ne_zero_of_lt before)
    obtain ⟨p, ps, rfl⟩ := List.exists_cons_of_length_pos (Nat.zero_lt_of_lt given)
    obtain ⟨first, others⟩ := List.forall_mem_cons.mp noReset
    obtain ⟨u, stepped, rest⟩ := run_succ_next ran
    have after := idle.step ((pins_edge offers) ▸ first) stepped
    exact ih after others ((step_next_stim stepped).trans (restStim_edge offers)) (Nat.lt_of_succ_lt_succ before)
      (Nat.le_of_succ_le_succ given) rest

/-- Settles O54: the throttle's count and the three states behind it, no shorter way existing (R255). -/
theorem framesAreSpacedByTheThrottle : Obligations.FramesAreSpacedByTheThrottle := by
  intro s t ps rest j offers code atEnd quiet ready noReset one most given ran
  obtain ⟨j, rfl⟩ := Nat.exists_eq_succ_of_ne_zero (Nat.ne_of_gt one)
  obtain ⟨p, ps, rfl⟩ := List.exists_cons_of_length_pos (Nat.zero_lt_of_lt given)
  obtain ⟨u, stepped, ranOn⟩ := run_succ_next ran
  have idle := State.IdleFor.after_frame code atEnd quiet ready stepped
  have away := idle.run (List.forall_mem_cons.mp noReset).2 ((step_next_stim stepped).trans (restStim_edge offers)) most
    (Nat.le_of_succ_le_succ given) ranOn
  exact Bool.eq_false_iff.mpr (mt t.outputs_bTxValid_iff.mp away)

/-! A frame on LINK-B (R96, R249). -/

theorem toNat_succ_of_lt {a b : Half} (before : a.toNat < b.toNat) : (a + 1).toNat = a.toNat + 1 := by
  bv_omega

section TxB
variable {s : State} {p : Pins} {d : List Byte} {rest : List Stimulus} (legal : legalConfig s.cfg = true)
  (code : s.sch.st = stTxB) (quiet : calm p = true) (ready : p.bTxReady = true) (offers : s.stim = .edge p :: rest)
include legal code quiet ready offers

/-- An edge that moves a frame byte. -/
theorem step_txB_more (buf : s.tx.buf = some d) (long : s.tx.len.toNat ≤ d.length)
    (before : s.tx.idx.toNat < s.tx.len.toNat) :
    s.moves.bTx = d[s.tx.idx.toNat]? ∧
      step s = .next ({ s.clearReport with tx := { s.tx with idx := s.tx.idx + 1 } }.after s 1) := by
  have pins := pins_edge offers
  have value : s.frameByte = some d[s.tx.idx.toNat] :=
    (State.frameByte_of_lt before buf).trans (List.getElem?_eq_getElem (by omega))
  have apart : s.tx.idx ≠ s.tx.len := fun same => before.ne (congrArg BitVec.toNat same)
  exact ⟨(State.moves_bTx_of_ready code (pins ▸ ready)).trans (State.frameByte_of_lt before buf),
    step_calm_edge legal offers quiet (.of_eq code .txB) (exec_sTxB_more (s := s.clearReport) value (pins ▸ ready) apart)⟩

/-- The edge that moves the terminator. -/
theorem step_txB_end (atEnd : s.tx.idx = s.tx.len) :
    s.moves.bTx = some termByte ∧
      step s = .next ((if s.cfg.throttleCycles = 0 then s.clearReport.setSt stPollB
        else { s.clearReport with thr := s.cfg.throttleCycles }.setSt stThrottle).after s 1) := by
  have pins := pins_edge offers
  have value : s.frameByte = some termByte := State.frameByte_of_le (atEnd ▸ le_rfl)
  exact ⟨(State.moves_bTx_of_ready code (pins ▸ ready)).trans value,
    step_calm_edge legal offers quiet (.of_eq code .txB) (exec_sTxB_end (s := s.clearReport) value (pins ▸ ready) atEnd)⟩

end TxB

/-- From byte `idx` on, with a ready sink at every edge: the rest of the frame, then the terminator. -/
theorem run_txB {ps : List Pins} {s : State} {d : List Byte} {rest : List Stimulus} (legal : legalConfig s.cfg = true)
    (code : s.sch.st = stTxB) (buf : s.tx.buf = some d) (long : s.tx.len.toNat ≤ d.length)
    (begun : s.tx.idx.toNat ≤ s.tx.len.toNat) (edges : ps.length + s.tx.idx.toNat = s.tx.len.toNat + 1)
    (quiet : ∀ p ∈ ps, calm p = true ∧ p.bTxReady = true) (offers : s.stim = ps.map Stimulus.edge ++ rest) :
    sentB ps.length s = (d.take s.tx.len.toNat).drop s.tx.idx.toNat ++ [termByte] ∧ sentA ps.length s = [] ∧
    ∃ t, core.run ps.length s = .next t ∧ t.tx = { s.tx with idx := s.tx.len } ∧
      (s.cfg.throttleCycles = 0 → t.sch = { s.sch with st := stPollB } ∧ t.thr = s.thr) ∧
      (s.cfg.throttleCycles ≠ 0 → t.sch = { s.sch with st := stThrottle } ∧ t.thr = s.cfg.throttleCycles) ∧
      t.fifo = s.fifo ∧ t.lbuf = s.lbuf ∧ t.p = s.p ∧ t.enc = s.enc ∧ t.stim = rest := by
  induction ps generalizing s with
  | nil =>
    rw [List.length_nil] at edges
    omega
  | cons p ps ih =>
    have silent : s.moves.aTx = none := State.moves_aTx_of_ne (by rw [code]; decide)
    have rest' : s.restStim = ps.map Stimulus.edge ++ rest := restStim_edge offers
    obtain ⟨⟨first, ready⟩, others⟩ := List.forall_mem_cons.mp quiet
    rw [List.length_cons] at edges ⊢
    by_cases atEnd : s.tx.idx = s.tx.len
    · obtain rfl : ps = [] := List.length_eq_zero_iff.mp (by rw [atEnd] at edges; omega)
      obtain ⟨moved, stepped⟩ := step_txB_end legal code first ready offers atEnd
      have nothing : (d.take s.tx.len.toNat).drop s.tx.idx.toNat = [] :=
        List.drop_of_length_le (by rw [atEnd]; exact List.length_take_le ..)
      refine ⟨?_, ?_, _, run_succ 0 stepped, ?_⟩
      · rw [List.length_nil, sentB_succ 0 stepped, moved, nothing]
        rfl
      · rw [List.length_nil, sentA_succ 0 stepped, silent]
        rfl
      · rw [← atEnd]
        split
        next zero => exact ⟨rfl, fun _ => ⟨rfl, rfl⟩, fun some => absurd zero some, rfl, rfl, rfl, rfl, rest'⟩
        next some => exact ⟨rfl, fun zero => absurd zero some, fun _ => ⟨rfl, rfl⟩, rfl, rfl, rfl, rfl, rest'⟩
    · have before : s.tx.idx.toNat < s.tx.len.toNat := lt_of_le_of_ne begun fun same => atEnd (BitVec.eq_of_toNat_eq same)
      obtain ⟨moved, stepped⟩ := step_txB_more legal code first ready offers buf long before
      have index : (s.tx.idx + 1).toNat = s.tx.idx.toNat + 1 := toNat_succ_of_lt before
      obtain ⟨sent, quietA, t, ran, facts⟩ :=
        ih (s := { s.clearReport with tx := { s.tx with idx := s.tx.idx + 1 } }.after s 1) legal code buf long
          (index ▸ before) (by dsimp only [State.after_tx]; omega) others rest'
      have inside : s.tx.idx.toNat < (d.take s.tx.len.toNat).length := by rw [List.length_take]; omega
      have split : (d.take s.tx.len.toNat).drop s.tx.idx.toNat =
          d[s.tx.idx.toNat]?.toList ++ (d.take s.tx.len.toNat).drop (s.tx.idx.toNat + 1) := by
        rw [List.drop_eq_getElem_cons inside, List.getElem?_eq_getElem (by omega), List.getElem_take]
        rfl
      refine ⟨?_, ?_, t, (run_succ _ stepped).trans ran, facts⟩
      · rw [sentB_succ _ stepped, sent, moved, split, List.append_assoc, ← index]
        rfl
      · rw [sentA_succ _ stepped, quietA, silent]
        rfl

/-- Settles O50: the frame from its first byte. -/
theorem frameIsSentWithItsTerminator : Obligations.FrameIsSentWithItsTerminator := by
  intro s d ps rest legal code first buf long edges quiet offers
  have zero : s.tx.idx.toNat = 0 := by rw [first]; rfl
  have sent := run_txB legal code buf long (zero ▸ Nat.zero_le _) (by rw [zero]; exact edges) quiet offers
  rwa [zero, List.drop_zero] at sent

/-! A reply on LINK-A (R97, R253). -/

section TxA
variable {s : State} {p : Pins} {bs : List Byte} {rest : List Stimulus} (legal : legalConfig s.cfg = true)
  (code : s.sch.st = stTxA) (quiet : calm p = true) (ready : p.aTxReady = true) (offers : s.stim = .edge p :: rest)
include legal code quiet ready offers

/-- An edge that moves a reply byte. -/
theorem step_txA_more (len : s.tx.len.toNat = bs.length) (held : holds s.lbuf bs)
    (before : s.tx.idx.toNat < s.tx.len.toNat) :
    s.moves.aTx = bs[s.tx.idx.toNat]? ∧
      step s = .next ({ s.clearReport with tx := { s.tx with idx := s.tx.idx + 1 } }.after s 1) := by
  have pins := pins_edge offers
  have offered : s.replyByte = bs[s.tx.idx.toNat]? := (State.replyByte_of_lt before).trans (held _ (len ▸ before))
  have value : s.replyByte = some bs[s.tx.idx.toNat] := offered.trans (List.getElem?_eq_getElem (len ▸ before))
  have apart : s.tx.idx ≠ s.tx.len := fun same => before.ne (congrArg BitVec.toNat same)
  exact ⟨(State.moves_aTx_of_ready code (pins ▸ ready)).trans offered,
    step_calm_edge legal offers quiet (.of_eq code .txA) (exec_sTxA_more (s := s.clearReport) value (pins ▸ ready) apart)⟩

/-- The edge that moves the terminator. -/
theorem step_txA_end (atEnd : s.tx.idx = s.tx.len) :
    s.moves.aTx = some termByte ∧ step s = .next ((s.clearReport.setSt stPollA).after s 1) := by
  have pins := pins_edge offers
  have value : s.replyByte = some termByte := State.replyByte_of_le (atEnd ▸ le_rfl)
  exact ⟨(State.moves_aTx_of_ready code (pins ▸ ready)).trans value,
    step_calm_edge legal offers quiet (.of_eq code .txA) (exec_sTxA_end (s := s.clearReport) value (pins ▸ ready) atEnd)⟩

end TxA

/-- From byte `idx` on, with a ready sink at every edge: the rest of the reply, then the terminator; all that changes. -/
theorem run_txA {ps : List Pins} {s : State} {bs : List Byte} {rest : List Stimulus} (legal : legalConfig s.cfg = true)
    (code : s.sch.st = stTxA) (len : s.tx.len.toNat = bs.length) (held : holds s.lbuf bs)
    (begun : s.tx.idx.toNat ≤ s.tx.len.toNat) (edges : ps.length + s.tx.idx.toNat = s.tx.len.toNat + 1)
    (quiet : ∀ p ∈ ps, calm p = true ∧ p.aTxReady = true) (offers : s.stim = ps.map Stimulus.edge ++ rest) :
    sentA ps.length s = bs.drop s.tx.idx.toNat ++ [termByte] ∧ sentB ps.length s = [] ∧
    core.run ps.length s = .next { s.clearReport.setSt stPollA with
      tx := { s.tx with idx := s.tx.len }, stim := rest, cycle := s.cycle + ps.length } := by
  induction ps generalizing s with
  | nil =>
    rw [List.length_nil] at edges
    omega
  | cons p ps ih =>
    have silent : s.moves.bTx = none := State.moves_bTx_of_ne (by rw [code]; decide)
    have rest' : s.restStim = ps.map Stimulus.edge ++ rest := restStim_edge offers
    obtain ⟨⟨first, ready⟩, others⟩ := List.forall_mem_cons.mp quiet
    rw [List.length_cons] at edges ⊢
    by_cases atEnd : s.tx.idx = s.tx.len
    · obtain rfl : ps = [] := List.length_eq_zero_iff.mp (by rw [atEnd] at edges; omega)
      obtain ⟨moved, stepped⟩ := step_txA_end legal code first ready offers atEnd
      have nothing : bs.drop s.tx.idx.toNat = [] := List.drop_of_length_le (by rw [atEnd, len])
      have rest' : s.restStim = rest := rest'
      refine ⟨?_, ?_, ?_⟩
      · rw [List.length_nil, sentA_succ 0 stepped, moved, nothing]
        rfl
      · rw [List.length_nil, sentB_succ 0 stepped, silent]
        rfl
      · rw [← atEnd, ← rest']
        exact run_succ 0 stepped
    · have before : s.tx.idx.toNat < s.tx.len.toNat := lt_of_le_of_ne begun fun same => atEnd (BitVec.eq_of_toNat_eq same)
      obtain ⟨moved, stepped⟩ := step_txA_more legal code first ready offers len held before
      have index : (s.tx.idx + 1).toNat = s.tx.idx.toNat + 1 := toNat_succ_of_lt before
      obtain ⟨sent, quietB, ran⟩ :=
        ih (s := { s.clearReport with tx := { s.tx with idx := s.tx.idx + 1 } }.after s 1) legal code len held
          (index ▸ before) (by dsimp only [State.after_tx]; omega) others rest'
      have inside : s.tx.idx.toNat < bs.length := len ▸ before
      have split : bs.drop s.tx.idx.toNat = bs[s.tx.idx.toNat]?.toList ++ bs.drop (s.tx.idx.toNat + 1) := by
        rw [List.drop_eq_getElem_cons inside, List.getElem?_eq_getElem inside]
        rfl
      have cycles : s.cycle + 1 + ps.length = s.cycle + (ps.length + 1) := by omega
      refine ⟨?_, ?_, ?_⟩
      · rw [sentA_succ _ stepped, sent, moved, split, List.append_assoc, ← index]
        rfl
      · rw [sentB_succ _ stepped, quietB, silent]
        rfl
      · rw [← cycles]
        exact (run_succ _ stepped).trans ran

/-- Settles O51: the reply from its first byte. -/
theorem replyIsSentWithItsTerminator : Obligations.ReplyIsSentWithItsTerminator := by
  intro s bs ps rest legal code first len held edges quiet offers
  have zero : s.tx.idx.toNat = 0 := by rw [first]; rfl
  obtain ⟨sent, silent, ran⟩ :=
    run_txA legal code len held (zero ▸ Nat.zero_le _) (by rw [zero, len]; exact edges) quiet offers
  rw [zero, List.drop_zero] at sent
  exact ⟨sent, silent, _, ran, rfl, rfl, rfl, rfl, rfl, rfl, rfl, rfl⟩

/-! The frames of a command (R170, R179, R247). -/

/-- One edge in S_ENC: frame ENC.k of the payload goes behind those held. -/
theorem step_enc {s : State} {p : Pins} {payload : List Byte} {rest : List Stimulus} (legal : legalConfig s.cfg = true)
    (code : s.sch.st = stEnc) (quiet : calm p = true) (offers : s.stim = .edge p :: rest)
    (len : payload.length = s.enc.len.toNat) (held : holds s.lbuf payload) (ok : FifoOk s)
    (inside : s.enc.k.toNat < nframes s.cfg payload.length) (room : s.fifo.count.toNat < s.cfg.fifoDepth) :
    ∃ t, fifoPush s.clearReport (padFrame s.cfg (frameBytes s.cfg payload s.enc.addr s.enc.k.toNat)) = .ok t ∧
      FifoOk t ∧ fifoFrames t = fifoFrames s ++ [some (padFrame s.cfg (frameBytes s.cfg payload s.enc.addr s.enc.k.toNat))] ∧
      t.fifo.count.toNat = s.fifo.count.toNat + 1 ∧
      step s = .next ((if s.enc.k.toNat + 1 = nframes s.cfg payload.length then t.setSt stPollQ
        else { t with enc := { t.enc with k := BitVec.ofNat 16 (s.enc.k.toNat + 1) } }).after s 1) := by
  have cleared : FifoOk s.clearReport := ⟨ok.depth, ok.count, ok.rptr, ok.wptr⟩
  have assembled := assembleFrame_of_holds len held (frame_begins legal inside)
  obtain ⟨t, pushed⟩ := cleared.fifoPush_answers (padFrame s.cfg (frameBytes s.cfg payload s.enc.addr s.enc.k.toNat)) room
  have answers := exec_sEnc_of_push (s := s.clearReport) (len ▸ inside) assembled pushed
  refine ⟨t, pushed, cleared.after_fifoPush pushed, cleared.fifoFrames_fifoPush pushed, cleared.fifoPush_count pushed, ?_⟩
  rw [len]
  exact step_calm_edge legal offers quiet (.of_eq code .enc) answers

/-- From frame `k` on, one edge for each frame left. -/
theorem run_enc {ps : List Pins} {s : State} {payload : List Byte} {rest : List Stimulus} (legal : legalConfig s.cfg = true)
    (code : s.sch.st = stEnc) (len : payload.length = s.enc.len.toNat) (held : holds s.lbuf payload) (ok : FifoOk s)
    (room : s.fifo.count.toNat + ps.length ≤ s.cfg.fifoDepth) (some : ps ≠ [])
    (edges : s.enc.k.toNat + ps.length = nframes s.cfg payload.length) (quiet : ∀ p ∈ ps, calm p = true)
    (offers : s.stim = ps.map Stimulus.edge ++ rest) :
    ∃ t, core.run ps.length s = .next t ∧ t.sch = { s.sch with st := stPollQ } ∧
      fifoFrames t = fifoFrames s ++
        ((encodeFrames s.cfg payload s.enc.addr).drop s.enc.k.toNat).map (fun b => Option.some (padFrame s.cfg b)) ∧
      FifoOk t ∧ t.enc.k.toNat + 1 = nframes s.cfg payload.length ∧ t.enc.len = s.enc.len ∧ t.enc.addr = s.enc.addr ∧
      t.p = s.p ∧ t.lbuf = s.lbuf ∧ t.tx = s.tx ∧ t.thr = s.thr ∧ t.rpt = { s.rpt with valid := false } ∧
      t.cfg = s.cfg ∧ t.stim = rest ∧ t.cycle = s.cycle + ps.length := by
  induction ps generalizing s with
  | nil => exact absurd rfl some
  | cons p ps ih =>
    obtain ⟨first, others⟩ := List.forall_mem_cons.mp quiet
    have rest' : s.restStim = ps.map Stimulus.edge ++ rest := restStim_edge offers
    rw [List.length_cons] at edges room ⊢
    have inside : s.enc.k.toNat < nframes s.cfg payload.length := by omega
    obtain ⟨t, pushed, after, frames, count, stepped⟩ := step_enc legal code first offers len held ok inside (by omega)
    have listed : (encodeFrames s.cfg payload s.enc.addr).drop s.enc.k.toNat =
        frameBytes s.cfg payload s.enc.addr s.enc.k.toNat ::
          (encodeFrames s.cfg payload s.enc.addr).drop (s.enc.k.toNat + 1) := by
      rw [List.drop_eq_getElem_cons (by rwa [length_encodeFrames]), getElem_encodeFrames]
    obtain ⟨q, rfl⟩ : ∃ q, t = { s.clearReport with fifo := q } := ⟨_, fifoPush_frame pushed⟩
    have count : q.count.toNat = s.fifo.count.toNat + 1 := count
    by_cases last : s.enc.k.toNat + 1 = nframes s.cfg payload.length
    · obtain rfl : ps = [] := List.length_eq_zero_iff.mp (by omega)
      rw [if_pos last] at stepped
      have noMore : (encodeFrames s.cfg payload s.enc.addr).drop (s.enc.k.toNat + 1) = [] :=
        List.drop_of_length_le (by rw [length_encodeFrames, last])
      refine ⟨_, run_succ 0 stepped, rfl, ?_, ⟨after.depth, after.count, after.rptr, after.wptr⟩, last, rfl, rfl, rfl, rfl, rfl,
        rfl, rfl, rfl, rest', rfl⟩
      rw [listed, noMore]
      exact frames
    · rw [if_neg last] at stepped
      have bound := s.enc.len.isLt
      have reach := frame_begins (k := s.enc.k.toNat + 1) legal (lt_of_le_of_ne inside last)
      have pos := Nat.le_mul_of_pos_right (s.enc.k.toNat + 1) (pcap_pos legal)
      have index : (BitVec.ofNat 16 (s.enc.k.toNat + 1)).toNat = s.enc.k.toNat + 1 := toNat_half_of_le (by omega)
      obtain ⟨t, ran, sch, framesT, okT, kT, lenT, addrT, pT, lbufT, txT, thrT, rptT, cfgT, stimT, cycleT⟩ :=
        ih (s := State.after { s.clearReport with
            fifo := q, enc := { s.enc with k := BitVec.ofNat 16 (s.enc.k.toNat + 1) } } s 1)
          legal code len held ⟨after.depth, after.count, after.rptr, after.wptr⟩
          (by dsimp only [State.after_fifo, State.after_cfg, State.clearReport_cfg]; omega)
          (fun none => by rw [none, List.length_nil] at edges; omega)
          (by dsimp only [State.after_enc, State.after_cfg, State.clearReport_cfg]; omega) others rest'
      refine ⟨t, (run_succ _ stepped).trans ran, sch, ?_, okT, kT, lenT, addrT, pT, lbufT, txT, thrT, rptT, cfgT, stimT, ?_⟩
      · have framesT := framesT.trans (congrArg (· ++ _) frames)
        dsimp only [State.after_enc, State.after_cfg, State.clearReport_cfg] at framesT
        rw [framesT, index, listed, List.append_assoc]
        rfl
      · rw [cycleT, State.after_cycle]
        omega

/-- Settles O44: from the first frame. -/
theorem encStateEnqueuesAllFramesInOrder : Obligations.EncStateEnqueuesAllFramesInOrder := by
  intro s payload ps rest legal code first len held ok room edges quiet offers
  have zero : s.enc.k.toNat = 0 := by rw [first]; rfl
  have some : ps ≠ [] := by
    rintro rfl
    have frames := nframes_pos legal payload.length
    rw [← edges] at frames
    exact absurd frames (by decide)
  have ran := run_enc legal code len held ok (edges ▸ room) some (by rw [zero, Nat.zero_add, edges]) quiet offers
  rwa [zero, List.drop_zero] at ran

end Sys2Proof.Machine
end

section
/-! PROOFS. 44_scheduler.md: a whole line taken in one step (log 3) is its clock edges (R256), and what follows it (R120, R210). -/

namespace Sys2Proof.Machine

/-! The step that takes a whole line. -/

/-- The environment after a whole LINK-A line is taken. -/
theorem restStim_lineA {s : State} {content left : List Byte} {rest : List Stimulus} (wf : lineWf content = true)
    (polls : s.sch.st = stPollA) (admitted : fifoAdmits s = true)
    (offers : s.stim = .bytesA (content ++ termByte :: left) :: rest) : s.restStim = keepA left rest := by
  have split := splitLine_append left wf
  have takes := (takesLineA_iff s _).mpr ⟨polls, admitted, content, left, split⟩
  simp only [State.restStim, offers, takes, if_true, afterLine, split]

theorem restStim_lineB {s : State} {content left : List Byte} {rest : List Stimulus} (wf : lineWf content = true)
    (polls : s.sch.st = stPollB) (offers : s.stim = .bytesB (content ++ termByte :: left) :: rest) :
    s.restStim = keepB left rest := by
  have split := splitLine_append left wf
  have takes := (takesLineB_iff s _).mpr ⟨polls, content, left, split⟩
  simp only [State.restStim, offers, takes, if_true, afterLine, split]

/-- An offered line is taken at a calm edge. -/
theorem calm_of_bytesA {s : State} {bytes : List Byte} {rest : List Stimulus} (offers : s.stim = .bytesA bytes :: rest) :
    calm s.pins = true := by
  cases bytes with
  | nil => rw [State.pins, offers]; rfl
  | cons b bs => rw [State.pins, offers]; rfl

theorem calm_of_bytesB {s : State} {bytes : List Byte} {rest : List Stimulus} (offers : s.stim = .bytesB bytes :: rest) :
    calm s.pins = true := by
  cases bytes with
  | nil => rw [State.pins, offers]; rfl
  | cons b bs => rw [State.pins, offers]; rfl

theorem step_lineA {s : State} {content left : List Byte} {rest : List Stimulus} (legal : legalConfig s.cfg = true)
    (wf : lineWf content = true) (polls : s.sch.st = stPollA) (admitted : fifoAdmits s = true)
    (offers : s.stim = .bytesA (content ++ termByte :: left) :: rest) :
    ∃ r, ReadsCommand s.cfg s.lbuf content r ∧
      step s = .next ((s.clearReport.endLineA r ((parseCmd s.cfg content).outcome s.cfg)).after s (content.length + 2)) := by
  have takes := (takesLineA_iff s _).mpr ⟨polls, admitted, content, left, splitLine_append left wf⟩
  have decoded : decode s.fetch = .ok (lineInstrA content) := by
    simp only [State.fetch, offers, takes, if_true, decode_lineA left wf]
  have quiet := calm_of_bytesA offers
  obtain ⟨r, line, answers⟩ := exec_lineInstrA (s := s.clearReport) legal wf
  refine ⟨r, line, ?_⟩
  rw [step_of_decoded legal ((calm_iff _).mp quiet).1 (fun _ => quiet) decoded, answers, length_lineInstrA_content]
  rfl

theorem step_lineB {s : State} {content left : List Byte} {rest : List Stimulus} (legal : legalConfig s.cfg = true)
    (wf : lineWf content = true) (polls : s.sch.st = stPollB)
    (offers : s.stim = .bytesB (content ++ termByte :: left) :: rest) :
    ∃ r, ReadsReply s.cfg s.lbuf content r ∧
      step s = .next ((s.clearReport.endLineB r (parseReply s.cfg content).outcome).after s (content.length + 2)) := by
  have takes := (takesLineB_iff s _).mpr ⟨polls, content, left, splitLine_append left wf⟩
  have decoded : decode s.fetch = .ok (lineInstrB content) := by
    simp only [State.fetch, offers, takes, if_true, decode_lineB left wf]
  have quiet := calm_of_bytesB offers
  obtain ⟨r, line, answers⟩ := exec_lineInstrB (s := s.clearReport) legal wf
  refine ⟨r, line, ?_⟩
  rw [step_of_decoded legal ((calm_iff _).mp quiet).1 (fun _ => quiet) decoded, answers, length_lineInstrB_content]
  rfl

/-! The edges of a line. -/

/-- The bytes of a line and its terminator, one edge each, in S_RX_A. -/
theorem run_rxA {bs : List Byte} {s : State} {r : ByteStep} {o : LineOutcome} {rest : List Stimulus}
    (legal : legalConfig s.cfg = true) (code : s.sch.st = stRxA) (wf : lineWf bs = true)
    (ran : runBytes (cmdStep s.cfg) s.p s.lbuf (bs ++ [termByte]) = .ok r) (ended : r.out = some o)
    (offers : s.stim = (bs ++ [termByte]).map (fun b => .edge (offerA b)) ++ rest) :
    core.run (bs.length + 1) s =
      .next { s.endLineA r o with stim := rest, cycle := s.cycle + (bs.length + 1) } := by
  induction bs generalizing s with
  | nil =>
    have offers : s.stim = .edge (offerA termByte) :: rest := offers
    have pins := pins_edge offers
    have stepped : cmdStep s.cfg s.p s.lbuf s.pins.aRxData = .ok r := by
      rw [pins]
      exact ran
    have answers := exec_sRxA_of_end (s := s.clearReport) (by rw [State.clearReport_pins, pins]; rfl) stepped ended
    rw [List.length_nil, run_succ 0 (step_calm_edge legal offers rfl (.of_eq code .rxA) answers), ← restStim_edge offers]
    unfold State.endLineA
    split <;> rfl
  | cons b bs ih =>
    obtain ⟨notTerm, wf⟩ := (lineWf_cons b bs).mp wf
    have offers : s.stim = .edge (offerA b) :: ((bs ++ [termByte]).map (fun b => .edge (offerA b)) ++ rest) := offers
    have pins := pins_edge offers
    cases first : cmdStep s.cfg s.p s.lbuf b with
    | error e =>
      rw [List.cons_append] at ran
      cases bs <;> simp [runBytes, first] at ran
    | ok r' =>
      rw [runBytes_cons_append first (List.cons_ne_nil _ _)] at ran
      have notOver : r'.out = none := (LineMode.step_out (M := cmdMode s.cfg) first).trans (if_neg notTerm)
      have answers := exec_sRxA_of_byte (s := s.clearReport) (r := r') (by rw [State.clearReport_pins, pins]; rfl)
        (by rw [State.clearReport_pins, pins]; exact first) notOver
      have stepped := step_calm_edge legal offers rfl (.of_eq code .rxA) answers
      have onward := ih (s := State.after { s.clearReport with p := r'.p, lbuf := r'.lbuf } s 1) legal code wf ran
        (restStim_edge offers)
      have cycles : s.cycle + 1 + (bs.length + 1) = s.cycle + ((b :: bs).length + 1) := by
        rw [List.length_cons]
        omega
      refine (run_succ _ stepped).trans (onward.trans ?_)
      rw [← cycles]
      unfold State.endLineA
      split <;> rfl

/-- The bytes of a line and its terminator, one edge each, in S_RX_B. -/
theorem run_rxB {bs : List Byte} {s : State} {r : ByteStep} {o : LineOutcome} {rest : List Stimulus}
    (legal : legalConfig s.cfg = true) (code : s.sch.st = stRxB) (wf : lineWf bs = true)
    (ran : runBytes (repStep s.cfg) s.p s.lbuf (bs ++ [termByte]) = .ok r) (ended : r.out = some o)
    (offers : s.stim = (bs ++ [termByte]).map (fun b => .edge (offerB b)) ++ rest) :
    core.run (bs.length + 1) s =
      .next { s.endLineB r o with stim := rest, cycle := s.cycle + (bs.length + 1) } := by
  induction bs generalizing s with
  | nil =>
    have offers : s.stim = .edge (offerB termByte) :: rest := offers
    have pins := pins_edge offers
    have stepped : repStep s.cfg s.p s.lbuf s.pins.bRxData = .ok r := by
      rw [pins]
      exact ran
    have answers := exec_sRxB_of_end (s := s.clearReport) (by rw [State.clearReport_pins, pins]; rfl) stepped ended
    rw [List.length_nil, run_succ 0 (step_calm_edge legal offers rfl (.of_eq code .rxB) answers), ← restStim_edge offers]
    unfold State.endLineB
    split <;> rfl
  | cons b bs ih =>
    obtain ⟨notTerm, wf⟩ := (lineWf_cons b bs).mp wf
    have offers : s.stim = .edge (offerB b) :: ((bs ++ [termByte]).map (fun b => .edge (offerB b)) ++ rest) := offers
    have pins := pins_edge offers
    cases first : repStep s.cfg s.p s.lbuf b with
    | error e =>
      rw [List.cons_append] at ran
      cases bs <;> simp [runBytes, first] at ran
    | ok r' =>
      rw [runBytes_cons_append first (List.cons_ne_nil _ _)] at ran
      have notOver : r'.out = none := (LineMode.step_out (M := repMode s.cfg) first).trans (if_neg notTerm)
      have answers := exec_sRxB_of_byte (s := s.clearReport) (r := r') (by rw [State.clearReport_pins, pins]; rfl)
        (by rw [State.clearReport_pins, pins]; exact first) notOver
      have stepped := step_calm_edge legal offers rfl (.of_eq code .rxB) answers
      have onward := ih (s := State.after { s.clearReport with p := r'.p, lbuf := r'.lbuf } s 1) legal code wf ran
        (restStim_edge offers)
      have cycles : s.cycle + 1 + (bs.length + 1) = s.cycle + ((b :: bs).length + 1) := by
        rw [List.length_cons]
        omega
      refine (run_succ _ stepped).trans (onward.trans ?_)
      rw [← cycles]
      unfold State.endLineB
      split <;> rfl

/-- The edges of a LINK-A line from its poll on (R338). -/
theorem run_lineEdgesA {s : State} {content : List Byte} {r : ByteStep} {rest : List Stimulus}
    (legal : legalConfig s.cfg = true) (wf : lineWf content = true) (polls : s.sch.st = stPollA)
    (admitted : fifoAdmits s = true)
    (line : ReadsCommand s.cfg s.lbuf content r) (offers : s.stim = lineEdgesA (content ++ [termByte]) ++ rest) :
    core.run (content.length + 2) s =
      .next { s.clearReport.endLineA r ((parseCmd s.cfg content).outcome s.cfg) with
        stim := rest, cycle := s.cycle + (content.length + 2) } := by
  have offers : s.stim = .edge (offerA ((content ++ [termByte]).headD 0)) ::
      ((content ++ [termByte]).map (fun b => .edge (offerA b)) ++ rest) := offers
  have pins := pins_edge offers
  have offered : s.pins.aRxValid = true := by rw [pins]; rfl
  have starts := exec_sPollA_of_starts (s := s.clearReport) ⟨offered, (fifoAdmits_iff_le_fifoFree s).mp admitted⟩
  have first := step_calm_edge legal offers rfl (.of_eq polls .pollA) starts
  have others := run_rxA (s := (({ s.clearReport with p := Parser.init } : State).setSt stRxA).after s 1) legal rfl wf
    line.run line.out (restStim_edge offers)
  have cycles : s.cycle + 1 + (content.length + 1) = s.cycle + (content.length + 2) := by omega
  refine (run_succ (content.length + 1) first).trans (others.trans ?_)
  rw [← cycles]
  unfold State.endLineA
  split <;> rfl

/-- The edges of a LINK-B line from its poll on (R338). -/
theorem run_lineEdgesB {s : State} {content : List Byte} {r : ByteStep} {rest : List Stimulus}
    (legal : legalConfig s.cfg = true) (wf : lineWf content = true) (polls : s.sch.st = stPollB)
    (line : ReadsReply s.cfg s.lbuf content r) (offers : s.stim = lineEdgesB (content ++ [termByte]) ++ rest) :
    core.run (content.length + 2) s =
      .next { s.clearReport.endLineB r (parseReply s.cfg content).outcome with
        stim := rest, cycle := s.cycle + (content.length + 2) } := by
  have offers : s.stim = .edge (offerB ((content ++ [termByte]).headD 0)) ::
      ((content ++ [termByte]).map (fun b => .edge (offerB b)) ++ rest) := offers
  have pins := pins_edge offers
  have offered : s.pins.bRxValid = true := by rw [pins]; rfl
  have starts := exec_sPollB_of_offered (s := s.clearReport) offered
  have first := step_calm_edge legal offers rfl (.of_eq polls .pollB) starts
  have others := run_rxB (s := (({ s.clearReport with p := Parser.init } : State).setSt stRxB).after s 1) legal rfl wf
    line.run line.out (restStim_edge offers)
  have cycles : s.cycle + 1 + (content.length + 1) = s.cycle + (content.length + 2) := by omega
  refine (run_succ (content.length + 1) first).trans (others.trans ?_)
  rw [← cycles]
  unfold State.endLineB
  split <;> rfl

/-- Settles O37: the poll's edge starts the line, and its bytes' edges end as the line's instruction does. -/
theorem lineAStepIsItsClockEdges : Obligations.LineAStepIsItsClockEdges := by
  intro s content rest legal wf polls admitted
  let whole : State := { s with stim := .bytesA (content ++ [termByte]) :: rest }
  obtain ⟨r, line, stepped⟩ := step_lineA (s := whole) legal wf polls admitted rfl
  have stim : whole.restStim = rest := restStim_lineA (s := whole) wf polls admitted rfl
  have edges := run_lineEdgesA (s := { s with stim := lineEdgesA (content ++ [termByte]) ++ rest }) legal wf polls admitted
    line rfl
  refine ⟨(stepped.trans ?_).trans edges.symm, _, stepped⟩
  rw [State.after, stim]
  unfold State.endLineA
  split <;> rfl

/-- Settles O38: the same on LINK-B, where no admission is asked. -/
theorem lineBStepIsItsClockEdges : Obligations.LineBStepIsItsClockEdges := by
  intro s content rest legal wf polls
  let whole : State := { s with stim := .bytesB (content ++ [termByte]) :: rest }
  obtain ⟨r, line, stepped⟩ := step_lineB (s := whole) legal wf polls rfl
  have stim : whole.restStim = rest := restStim_lineB (s := whole) wf polls rfl
  have edges := run_lineEdgesB (s := { s with stim := lineEdgesB (content ++ [termByte]) ++ rest }) legal wf polls line rfl
  refine ⟨(stepped.trans ?_).trans edges.symm, _, stepped⟩
  rw [State.after, stim]
  unfold State.endLineB
  split <;> rfl

/-! What an accepted line leads to. -/

theorem State.endLineA_of_ok {s : State} {r : ByteStep} {o : LineOutcome} (isOk : o.kind = kCmdOk) :
    s.endLineA r o =
      { (({ s with p := r.p, lbuf := r.lbuf }).report 0 o).setSt stEnc with
        enc := { len := r.p.ndata, addr := r.p.q.hexVal, k := 0 } } :=
  if_pos isOk

theorem State.endLineB_of_ok {s : State} {r : ByteStep} {o : LineOutcome} (isOk : o.kind = kReplyOk) :
    s.endLineB r o =
      { (({ s with p := r.p, lbuf := r.lbuf }).report 1 o).setSt stTxA with
        tx := { s.tx with len := r.p.ndata, idx := 0 } } :=
  if_pos isOk

/-- Settles O45: the line leaves S_ENC with the payload in LBUF, and the edges after it push its frames. -/
theorem acceptedCommandEnqueuesItsFrames : Obligations.AcceptedCommandEnqueuesItsFrames := by
  intro s body payload a ps rest legal wf ok polls admitted fifo edges quiet offers
  obtain ⟨r, line, stepped⟩ := step_lineA (content := cmdPfx ++ body) legal wf polls admitted offers
  have stim : s.restStim = ps.map Stimulus.edge ++ rest :=
    restStim_lineA (content := cmdPfx ++ body) wf polls admitted offers
  obtain ⟨ndata, -, fits, addr, held, -⟩ := line.accepted payload a ok
  have small := ((legalConfig_iff s.cfg).mp legal).2.2.2.1
  have len : payload.length = r.p.ndata.toNat := by rw [ndata, toNat_half_of_le (by omega)]
  have room : s.fifo.count.toNat + nMax s.cfg ≤ s.cfg.fifoDepth := of_decide_eq_true admitted
  have few := nframes_le_nMax fits
  rw [ok, State.endLineA_of_ok rfl] at stepped
  generalize after : State.after _ s _ = u at stepped
  obtain ⟨t, ran, sch, frames, okT, -, -, -, -, -, tx, thr, rpt, -, stimT, cycle⟩ :=
    encStateEnqueuesAllFramesInOrder u payload ps rest (by rw [← after]; exact legal) (by rw [← after]; rfl)
      (by rw [← after]; rfl) (by rw [← after]; exact len) (by rw [← after]; exact held)
      (by rw [← after]; exact ⟨fifo.depth, fifo.count, fifo.rptr, fifo.wptr⟩)
      (by rw [← after]; exact (Nat.add_le_add_left few _).trans room) (by rw [← after]; exact edges) quiet
      (by rw [← after]; exact stim)
  subst after
  refine ⟨t, (run_succ _ stepped).trans ran, ?_, ?_, okT, tx, thr, stimT, ?_, rpt⟩
  · rw [sch]
  · rw [← addr]
    exact frames
  · rw [cycle, State.after_cycle, List.length_append]
    simp only [cmdPfx, List.length_cons, List.length_nil]
    omega

/-- Settles O52: the line leaves S_TX_A with the reply in LBUF, and the edges after it send its bytes. -/
theorem acceptedReplyIsSentOnLinkA : Obligations.AcceptedReplyIsSentOnLinkA := by
  intro s body bs ps rest legal wf ok polls edges quiet offers
  obtain ⟨r, line, stepped⟩ := step_lineB (content := repPfx ++ body) legal wf polls offers
  have stim : s.restStim = ps.map Stimulus.edge ++ rest := restStim_lineB (content := repPfx ++ body) wf polls offers
  obtain ⟨ndata, fits, held, -⟩ := line.accepted bs ok
  have small := ((legalConfig_iff s.cfg).mp legal).2.2.2.1
  have len : r.p.ndata.toNat = bs.length := by rw [ndata, toNat_half_of_le (by omega)]
  have silentA : s.moves.aTx = none := State.moves_aTx_of_ne (by rw [polls]; decide)
  have silentB : s.moves.bTx = none := State.moves_bTx_of_ne (by rw [polls]; decide)
  rw [ok, State.endLineB_of_ok rfl] at stepped
  generalize after : State.after _ s _ = u at stepped
  obtain ⟨sent, silent, ran⟩ :=
    run_txA (s := u) (ps := ps) (bs := bs) (rest := rest) (by rw [← after]; exact legal) (by rw [← after]; rfl)
      (by rw [← after]; exact len) (by rw [← after]; exact held) (by rw [← after]; exact Nat.zero_le _)
      (by rw [← after]; exact edges.trans (congrArg (· + 1) len.symm)) quiet (by rw [← after]; exact stim)
  subst after
  refine ⟨?_, ?_, _, (run_succ _ stepped).trans ran, rfl, rfl, rfl, rfl, rfl, rfl, ?_, rfl⟩
  · rw [sentA_succ _ stepped, silentA, sent]
    rfl
  · rw [sentB_succ _ stepped, silentB, silent]
    rfl
  · dsimp only [State.after_cycle]
    rw [List.length_append]
    simp only [repPfx, List.length_cons, List.length_nil]
    omega

end Sys2Proof.Machine
end

section
/-! PROOFS. The invariant of the states a run from reset reaches (R245, R309, R331): reset meets it (R321), every step keeps it,
and every state that meets it steps. -/

namespace Sys2Proof.Machine

/-! The invariant in parts: what holds whatever SCH.st is, and what each of the states with work in hand needs. -/

/-- What every state of a run meets. -/
structure State.Sound (s : State) : Prop where
  legal : legalConfig s.cfg = true
  phase : s.p.phase.toNat ≤ 2
  fifo : FifoOk s
  frames : ∀ e ∈ fifoFrames s, ∃ f : Frame, e = some f ∧ f.wf s.cfg = true
  lbufWf : Store.wf s.lbuf = true
  memWf : Store.wf s.fifo.mem = true
  kind : s.rpt.valid = true → 1 ≤ s.rpt.kind.toNat ∧ s.rpt.kind.toNat ≤ 8

/-- S_RX_A: a line is being read that was admitted with room for its frames (R245). -/
structure State.RxA (s : State) : Prop where
  pfx : s.p.phase = phPfx → s.p.pfxI.toNat < 5
  data : DataStored s.cfg s.p s.lbuf
  admitted : s.fifo.count.toNat + nMax s.cfg ≤ s.cfg.fifoDepth
  quiet : s.rpt.valid = false

/-- S_RX_B: a line is being read. -/
structure State.RxB (s : State) : Prop where
  pfx : s.p.phase = phPfx → s.p.pfxI.toNat < 7
  data : DataStored s.cfg s.p s.lbuf
  quiet : s.rpt.valid = false

/-- S_ENC: the frames still to push exist, fit, and their bytes are in LBUF. -/
structure State.Enc (s : State) : Prop where
  len : s.enc.len.toNat ≤ s.cfg.lbufBytes
  index : s.enc.k.toNat < nframes s.cfg s.enc.len.toNat
  room : s.fifo.count.toNat + (nframes s.cfg s.enc.len.toNat - s.enc.k.toNat) ≤ s.cfg.fifoDepth
  bytes : ∀ k, k < s.enc.len.toNat → (Store.read s.lbuf k).isSome = true

/-- S_TX_B: TX.buf holds the frame. -/
structure State.TxB (s : State) : Prop where
  index : s.tx.idx.toNat ≤ s.tx.len.toNat
  len : s.tx.len.toNat ≤ s.cfg.chunkSize
  buf : ∃ d, s.tx.buf = some d ∧ d.length = s.cfg.chunkSize

/-- S_TX_A: LBUF holds the reply. -/
structure State.TxA (s : State) : Prop where
  index : s.tx.idx.toNat ≤ s.tx.len.toNat
  len : s.tx.len.toNat ≤ s.cfg.lbufBytes
  bytes : ∀ k, k < s.tx.len.toNat → (Store.read s.lbuf k).isSome = true

/-- S_THROTTLE is entered with a count of at least 1. -/
def State.Throttled (s : State) : Prop := s.thr ≠ 0

/-- What the state with the code `v` needs of the registers. -/
def State.Work (s : State) (v : BitVec 4) : Prop :=
  if v = stRxA then s.RxA
  else if v = stRxB then s.RxB
  else if v = stEnc then s.Enc
  else if v = stTxB then s.TxB
  else if v = stTxA then s.TxA
  else if v = stThrottle then s.Throttled
  else True

theorem State.Inv.sound {s : State} (inv : s.Inv) : s.Sound :=
  ⟨inv.legal, inv.phase, inv.fifo, inv.frames, inv.lbufWf, inv.memWf, inv.kind⟩

theorem State.Inv.work {s : State} (inv : s.Inv) {v : BitVec 4} (code : s.sch.st = v) : s.Work v := by
  subst code
  unfold State.Work
  split_ifs with rxA rxB enc txB txA throttle
  · exact ⟨inv.pfxA rxA, ⟨inv.fits (.inl rxA), inv.stored (.inl rxA)⟩, inv.admitted rxA,
      Bool.eq_false_iff.mpr fun valid => (inv.pulse valid).1 rxA⟩
  · exact ⟨inv.pfxB rxB, ⟨inv.fits (.inr rxB), inv.stored (.inr rxB)⟩,
      Bool.eq_false_iff.mpr fun valid => (inv.pulse valid).2 rxB⟩
  · exact ⟨(inv.encLen enc).1, (inv.encLen enc).2, inv.encRoom enc, inv.encBytes enc⟩
  · exact ⟨(inv.txB txB).1, (inv.txB txB).2.1, (inv.txB txB).2.2⟩
  · exact ⟨(inv.txA txA).1, (inv.txA txA).2.1, (inv.txA txA).2.2⟩
  · exact inv.throttle throttle

namespace State.Sound
variable {s t : State} (sound : s.Sound)
include sound

/-- The invariant from its parts. -/
theorem inv {v : BitVec 4} (code : s.sch.st = v) (legal : v.toNat ≤ 10) (cause : v ≠ stStopError → s.sch.stopCause = 0)
    (work : s.Work v) : s.Inv := by
  have at_ {w : BitVec 4} (here : s.sch.st = w) : s.Work w := here ▸ code ▸ work
  have rxA (h : s.sch.st = stRxA) : s.RxA := at_ h
  have rxB (h : s.sch.st = stRxB) : s.RxB := at_ h
  have enc (h : s.sch.st = stEnc) : s.Enc := at_ h
  have txB (h : s.sch.st = stTxB) : s.TxB := at_ h
  have txA (h : s.sch.st = stTxA) : s.TxA := at_ h
  exact {
    legal := sound.legal
    code := code ▸ legal
    cause := fun h => cause (code ▸ h)
    phase := sound.phase
    pfxA := fun h => (rxA h).pfx
    pfxB := fun h => (rxB h).pfx
    fifo := sound.fifo
    frames := sound.frames
    lbufWf := sound.lbufWf
    memWf := sound.memWf
    fits := fun h => h.elim (fun h => (rxA h).data.fits) (fun h => (rxB h).data.fits)
    stored := fun h => h.elim (fun h => (rxA h).data.stored) (fun h => (rxB h).data.stored)
    admitted := fun h => (rxA h).admitted
    encLen := fun h => ⟨(enc h).len, (enc h).index⟩
    encRoom := fun h => (enc h).room
    encBytes := fun h => (enc h).bytes
    txB := fun h => ⟨(txB h).index, (txB h).len, (txB h).buf⟩
    txA := fun h => ⟨(txA h).index, (txA h).len, (txA h).bytes⟩
    throttle := fun h => at_ h
    kind := sound.kind
    pulse := fun valid => ⟨fun h => (Bool.eq_false_iff.mp (rxA h).quiet) valid,
      fun h => (Bool.eq_false_iff.mp (rxB h).quiet) valid⟩ }

/-- Only these registers matter to `Sound`. -/
theorem congr (cfg : t.cfg = s.cfg) (fifo : t.fifo = s.fifo) (phase : t.p.phase.toNat ≤ 2) (lbuf : Store.wf t.lbuf = true)
    (kind : t.rpt.valid = true → 1 ≤ t.rpt.kind.toNat ∧ t.rpt.kind.toNat ≤ 8) : t.Sound := by
  have frames : fifoFrames t = fifoFrames s := by simp only [fifoFrames, cfg, fifo]
  refine ⟨cfg ▸ sound.legal, phase, ⟨?_, ?_, ?_, ?_⟩, ?_, lbuf, fifo ▸ sound.memWf, kind⟩
  · rw [cfg]
    exact sound.fifo.depth
  · rw [cfg, fifo]
    exact sound.fifo.count
  · rw [cfg, fifo]
    exact sound.fifo.rptr
  · rw [cfg, fifo]
    exact sound.fifo.wptr
  · rw [frames, cfg]
    exact sound.frames

end State.Sound

/-- Moving the environment on and clearing the report keep the invariant. -/
theorem State.Inv.after {s : State} (inv : s.Inv) (t : State) (n : Nat) : (s.after t n).Inv := by
  obtain ⟨legal, code, cause, phase, pfxA, pfxB, ⟨depth, count, rptr, wptr⟩, frames, lbufWf, memWf, fits, stored, admitted, encLen,
    encRoom, encBytes, txB, txA, throttle, kind, pulse⟩ := inv
  exact ⟨legal, code, cause, phase, pfxA, pfxB, ⟨depth, count, rptr, wptr⟩, frames, lbufWf, memWf, fits, stored, admitted, encLen,
    encRoom, encBytes, txB, txA, throttle, kind, pulse⟩

theorem State.Inv.clearReport {s : State} (inv : s.Inv) : s.clearReport.Inv := by
  obtain ⟨legal, code, cause, phase, pfxA, pfxB, ⟨depth, count, rptr, wptr⟩, frames, lbufWf, memWf, fits, stored, admitted, encLen,
    encRoom, encBytes, txB, txA, throttle, kind, pulse⟩ := inv
  exact ⟨legal, code, cause, phase, pfxA, pfxB, ⟨depth, count, rptr, wptr⟩, frames, lbufWf, memWf, fits, stored, admitted, encLen,
    encRoom, encBytes, txB, txA, throttle, fun valid => (nomatch valid), fun valid => (nomatch valid)⟩

/-! Reset and stop entry. -/

/-- The reset values meet the invariant, under every legal configuration. -/
theorem doReset_inv {s : State} (legal : legalConfig s.cfg = true) : (doReset s).Inv := by
  obtain ⟨-, -, -, -, depth, depthMax⟩ := (legalConfig_iff s.cfg).mp legal
  have positive := (one_le_nMax s.cfg).trans depth
  have sound : (doReset s).Sound := by
    refine ⟨legal, Nat.zero_le _, ⟨⟨positive, depthMax⟩, Nat.zero_le _, positive, ?_⟩, ?_, rfl, rfl, fun valid => (nomatch valid)⟩
    · exact (Nat.zero_mod _).symm
    · rintro e listed
      cases listed
  exact sound.inv (v := stPollA) rfl (by decide) (fun _ => rfl) trivial

/-- Settles O55. -/
theorem resetStateMeetsTheInvariant : Obligations.ResetStateMeetsTheInvariant :=
  doReset_inv (s := State.reset) rfl

theorem enterStop_inv {s : State} (sound : s.Sound) {v : BitVec 4} (stops : v = stStopClean ∨ v = stStopError)
    (aErr bErr : Bool) : (enterStop s v aErr bErr).Inv := by
  have stopped : (enterStop s v aErr bErr).Sound :=
    sound.congr rfl rfl sound.phase sound.lbufWf fun valid => (nomatch valid)
  obtain rfl | rfl := stops
  · exact stopped.inv (v := stStopClean) rfl (by decide) (fun _ => rfl) trivial
  · exact stopped.inv (v := stStopError) rfl (by decide) (fun other => absurd rfl other) trivial

/-! The end of a line. -/

theorem eolCmd_kind (c : Config) (p : Parser) : 1 ≤ (eolCmd c p).kind.toNat ∧ (eolCmd c p).kind.toNat ≤ 8 := by
  unfold eolCmd
  split_ifs <;> dsimp only <;> decide

theorem eolReply_kind (c : Config) (p : Parser) : 1 ≤ (eolReply c p).kind.toNat ∧ (eolReply c p).kind.toNat ≤ 8 := by
  unfold eolReply
  split_ifs <;> dsimp only <;> decide

theorem CmdResult.outcome_kind (c : Config) (res : CmdResult) :
    1 ≤ (res.outcome c).kind.toNat ∧ (res.outcome c).kind.toNat ≤ 8 := by
  cases res <;> dsimp only [CmdResult.outcome] <;> decide

theorem ReplyResult.outcome_kind (res : ReplyResult) : 1 ≤ res.outcome.kind.toNat ∧ res.outcome.kind.toNat ≤ 8 := by
  cases res <;> dsimp only [ReplyResult.outcome] <;> decide

/-- What REPLY_OK says of the registers it is reported on (R219): no byte error and no overflow. -/
theorem eolReply_ok {c : Config} {p : Parser} (ok : (eolReply c p).kind = kReplyOk) : p.byteErr = false ∧ p.ovf = false := by
  unfold eolReply at ok
  split_ifs at ok with other err extra
  · simp [kNotReply, kReplyOk] at ok
  · simp [kInvalidByteValue, kReplyOk] at ok
  · simp [kPayloadOverflow, kReplyOk] at ok
  · exact ⟨Bool.eq_false_iff.mpr err, Bool.eq_false_iff.mpr extra⟩

/-- An accepted line's bytes are in LBUF: what ENC.L or TX.len is loaded with. -/
structure LineStored (c : Config) (r : ByteStep) : Prop where
  fits : r.p.ndata.toNat ≤ c.lbufBytes
  bytes : ∀ k, k < r.p.ndata.toNat → (Store.read r.lbuf k).isSome = true

theorem DataStored.line {c : Config} {r : ByteStep} (data : DataStored c r.p r.lbuf) (ovf : r.p.ovf = false)
    (byteErr : r.p.byteErr = false) : LineStored c r :=
  ⟨data.fits ovf, data.stored ovf byteErr⟩

theorem lineStored_of_holds {c : Config} {r : ByteStep} {bs : List Byte} (small : c.lbufBytes ≤ 65535)
    (ndata : r.p.ndata = BitVec.ofNat 16 bs.length) (fits : bs.length ≤ c.lbufBytes) (held : holds r.lbuf bs) :
    LineStored c r := by
  have len : r.p.ndata.toNat = bs.length := by rw [ndata, toNat_half_of_le (by omega)]
  refine ⟨len ▸ fits, fun k inside => ?_⟩
  rw [len] at inside
  rw [held k inside, List.getElem?_eq_getElem inside]
  rfl

section EndLineInv
variable {s : State} {r : ByteStep} {o : LineOutcome} (sound : s.Sound) (cause : s.sch.stopCause = 0)
  (phase : r.p.phase.toNat ≤ 2) (canonical : Store.wf r.lbuf = true) (kind : 1 ≤ o.kind.toNat ∧ o.kind.toNat ≤ 8)
include sound cause phase canonical kind

theorem State.endLineA_inv (admitted : s.fifo.count.toNat + nMax s.cfg ≤ s.cfg.fifoDepth)
    (stored : o.kind = kCmdOk → LineStored s.cfg r) : (s.endLineA r o).Inv := by
  have after : (s.endLineA r o).Sound := sound.congr (s.endLineA_cfg r o) (s.endLineA_fifo r o)
    (by rwa [State.endLineA_p]) (by rwa [State.endLineA_lbuf]) (fun _ => by rwa [State.endLineA_rpt])
  have noCause : (s.endLineA r o).sch.stopCause = 0 := (s.endLineA_stopCause r o).trans cause
  have code := s.endLineA_st r o
  by_cases isOk : o.kind = kCmdOk
  · rw [if_pos isOk] at code
    obtain ⟨fits, bytes⟩ := stored isOk
    have few := nframes_le_nMax fits
    refine after.inv (v := stEnc) code (by decide) (fun _ => noCause) ?_
    rw [State.endLineA_of_ok isOk]
    exact State.Enc.mk fits (nframes_pos sound.legal _) ((Nat.add_le_add_left few _).trans admitted) bytes
  · rw [if_neg isOk] at code
    exact after.inv code (by decide) (fun _ => noCause) trivial

theorem State.endLineB_inv (stored : o.kind = kReplyOk → LineStored s.cfg r) : (s.endLineB r o).Inv := by
  have after : (s.endLineB r o).Sound := sound.congr (s.endLineB_cfg r o) (s.endLineB_fifo r o)
    (by rwa [State.endLineB_p]) (by rwa [State.endLineB_lbuf]) (fun _ => by rwa [State.endLineB_rpt])
  have noCause : (s.endLineB r o).sch.stopCause = 0 := (s.endLineB_stopCause r o).trans cause
  have code := s.endLineB_st r o
  by_cases isOk : o.kind = kReplyOk
  · rw [if_pos isOk] at code
    obtain ⟨fits, bytes⟩ := stored isOk
    refine after.inv code (by decide) (fun _ => noCause) ?_
    rw [State.endLineB_of_ok isOk]
    exact State.TxA.mk (Nat.zero_le _) fits bytes
  · rw [if_neg isOk] at code
    exact after.inv code (by decide) (fun _ => noCause) trivial

end EndLineInv

/-- A whole line's byte steps leave no reserved phase. -/
theorem LineMode.run_line_phase {c : Config} {M : LineMode} (lawful : M.Lawful c) {m : Memory} {content : List Byte}
    (wf : lineWf content = true) {r : ByteStep} (ran : runBytes M.step Parser.init m (content ++ [termByte]) = .ok r) :
    r.p.phase.toNat ≤ 2 := by
  obtain ⟨r', first, -, ready⟩ := (LineMode.ready_init lawful).run_answers lawful m wf
  rw [runBytes_append first (List.cons_ne_nil _ _)] at ran
  exact (ready.after_step lawful ran).1

/-! The frame that S_ENC pushes. -/

/-- A range read answers exactly where every byte of the range has a value. -/
theorem readRange_answers_iff {m : Memory} {i n : Nat} :
    (∃ bs, readRange m i n = .ok bs) ↔ ∀ j, i ≤ j → j < i + n → (Store.read m j).isSome = true := by
  induction n generalizing i with
  | zero => exact iff_of_true ⟨[], rfl⟩ fun j above below => absurd below (by omega)
  | succ n ih =>
    have split : (∀ j, i ≤ j → j < i + (n + 1) → (Store.read m j).isSome = true) ↔
        (Store.read m i).isSome = true ∧ ∀ j, i + 1 ≤ j → j < i + 1 + n → (Store.read m j).isSome = true := by
      constructor
      · exact fun all => ⟨all i le_rfl (by omega), fun j above below => all j (by omega) (by omega)⟩
      · rintro ⟨here, others⟩ j above below
        obtain rfl | past := Nat.eq_or_lt_of_le above
        · exact here
        · exact others j past (by omega)
    rw [split, ← ih, readRange]
    cases Store.read m i with
    | none => simp
    | some b => cases readRange m (i + 1) n <;> simp

theorem assembleFrame_answers {c : Config} {e : Encoder} {m : Memory}
    (bytes : ∀ k, k < e.len.toNat → (Store.read m k).isSome = true) (k : Nat) : ∃ f, assembleFrame c e m k = .ok f := by
  obtain ⟨body, read⟩ := readRange_answers_iff.mpr (fun j (_ : k * pcap c ≤ j)
    (below : j < k * pcap c + (min e.len.toNat (k * pcap c + pcap c) - k * pcap c)) => bytes j (by omega))
  exact ⟨_, by rw [assembleFrame, read]⟩

/-- The frame assembled is one R36 and R190 allow. -/
theorem assembleFrame_wf {c : Config} (legal : legalConfig c = true) {e : Encoder} {m : Memory} {k : Nat} {f : Frame}
    (assembled : assembleFrame c e m k = .ok f) : f.wf c = true := by
  have small := ((legalConfig_iff c).mp legal).2.1
  have chunk := chunkSize_eq legal
  rw [assembleFrame] at assembled
  split at assembled
  · cases assembled
  next body read =>
    cases assembled
    have len := readRange_length read
    refine padFrame_wf ?_ ?_ small <;> rw [List.length_append, length_trailer] <;> omega

/-! What every operation keeps. -/

theorem State.Sound.fifoPush {s t : State} {f : Frame} (sound : s.Sound) (wf : f.wf s.cfg = true)
    (pushed : Machine.fifoPush s f = .ok t) : t.Sound := by
  have cfg := fifoPush_cfg pushed
  have frames := sound.fifo.fifoFrames_fifoPush pushed
  have memWf : Store.wf t.fifo.mem = true := by
    rw [fifoPush_mem pushed]
    exact Store.write_wf _ f sound.memWf
  have after := sound.fifo.after_fifoPush pushed
  refine ⟨cfg ▸ sound.legal, ?_, after, ?_, ?_, memWf, ?_⟩
  · rw [fifoPush_frame pushed]
    exact sound.phase
  · rw [frames, cfg]
    intro e listed
    obtain held | new := List.mem_append.mp listed
    · exact sound.frames e held
    · exact ⟨f, List.mem_singleton.mp new, wf⟩
  · rw [fifoPush_frame pushed]
    exact sound.lbufWf
  · rw [fifoPush_frame pushed]
    exact sound.kind

theorem State.Sound.fifoPop {s t : State} {f : Frame} (sound : s.Sound) (popped : Machine.fifoPop s = .ok (f, t)) :
    t.Sound ∧ f.wf s.cfg = true := by
  have cfg := fifoPop_cfg popped
  have frames := sound.fifo.fifoFrames_fifoPop popped
  obtain ⟨frame, mem, -⟩ := fifoPop_frame popped
  have after := sound.fifo.after_fifoPop popped
  obtain ⟨g, same, wf⟩ := sound.frames (some f) (frames ▸ List.mem_cons_self)
  obtain rfl := Option.some.inj same
  refine ⟨⟨cfg ▸ sound.legal, ?_, after, ?_, ?_, mem ▸ sound.memWf, ?_⟩, wf⟩
  · rw [frame]
    exact sound.phase
  · rw [cfg]
    exact fun e listed => sound.frames e (frames ▸ List.mem_cons_of_mem _ listed)
  · rw [frame]
    exact sound.lbufWf
  · rw [frame]
    exact sound.kind

theorem Frame.wf_iff {c : Config} {f : Frame} :
    f.wf c = true ↔ 2 ≤ f.len.toNat ∧ f.len.toNat ≤ c.chunkSize ∧ f.data.length = c.chunkSize :=
  decide_eq_true_iff

/-- Every scheduler operation keeps the invariant, the report being cleared before it (R243). -/
theorem Names.next_inv {i : Instr} {s u : State} (named : Names s.sch.st i) (inv : s.Inv) (quiet : s.rpt.valid = false)
    (answers : exec i s = .next u) : u.Inv := by
  have sound := inv.sound
  have noCause : s.sch.st ≠ stStopError → s.sch.stopCause = 0 := inv.cause
  have unreported {t : State} (same : t.rpt = s.rpt) :
      t.rpt.valid = true → 1 ≤ t.rpt.kind.toNat ∧ t.rpt.kind.toNat ≤ 8 := same ▸ sound.kind
  have sameSound {t : State} (cfg : t.cfg = s.cfg) (fifo : t.fifo = s.fifo) (p : t.p = s.p) (lbuf : t.lbuf = s.lbuf)
      (rpt : t.rpt = s.rpt) : t.Sound :=
    sound.congr cfg fifo (p ▸ sound.phase) (lbuf ▸ sound.lbufWf) (unreported rpt)
  generalize code : s.sch.st = st at named
  cases named with
  | pollA =>
    have cause := noCause (by rw [code]; decide)
    obtain ⟨-, admitted, rfl⟩ | rfl := exec_sPollA_next answers
    · have start : State.Sound ({ s with p := Parser.init }.setSt stRxA) :=
        sound.congr rfl rfl (Nat.zero_le _) sound.lbufWf sound.kind
      refine start.inv (v := stRxA) rfl (by decide) (fun _ => cause) ?_
      exact State.RxA.mk (fun _ => Nat.zero_lt_succ _) (DataStored.init _ _) (of_decide_eq_true admitted) quiet
    · exact (sameSound (t := s.setSt stPollQ) rfl rfl rfl rfl rfl).inv (v := stPollQ) rfl (by decide) (fun _ => cause) trivial
  | pollB =>
    have cause := noCause (by rw [code]; decide)
    obtain rfl | rfl := exec_sPollB_next answers
    · have start : State.Sound ({ s with p := Parser.init }.setSt stRxB) :=
        sound.congr rfl rfl (Nat.zero_le _) sound.lbufWf sound.kind
      refine start.inv (v := stRxB) rfl (by decide) (fun _ => cause) ?_
      exact State.RxB.mk (fun _ => Nat.zero_lt_succ _) (DataStored.init _ _) quiet
    · exact (sameSound (t := s.setSt stPollA) rfl rfl rfl rfl rfl).inv (v := stPollA) rfl (by decide) (fun _ => cause) trivial
  | rxA =>
    have cause := noCause (by rw [code]; decide)
    have work : s.RxA := inv.work code
    have lawful := cmdMode_lawful s.cfg
    have ready : (cmdMode s.cfg).Ready s.p := ⟨sound.phase, work.pfx⟩
    obtain ⟨-, rfl⟩ | ⟨r, stepped, ended⟩ := exec_sRxA_next answers
    · exact inv
    have canonical := LineMode.step_lbuf_wf lawful stepped sound.lbufWf
    have data := LineMode.step_stored lawful stepped work.data
    obtain ⟨phase, further⟩ := ready.after_step lawful stepped
    obtain ⟨notTerm, rfl⟩ | ⟨-, rfl⟩ := ended
    · have onward : State.Sound { s with p := r.p, lbuf := r.lbuf } := sound.congr rfl rfl phase canonical sound.kind
      refine onward.inv (v := stRxA) code (by decide) (fun _ => cause) ?_
      exact State.RxA.mk (further notTerm).pfx data work.admitted quiet
    · refine State.endLineA_inv sound cause phase canonical (eolCmd_kind _ _) work.admitted fun ok => ?_
      obtain ⟨-, -, -, -, byteErr, ovf, -⟩ := eolCmd_ok ok
      exact data.line ovf byteErr
  | rxB =>
    have cause := noCause (by rw [code]; decide)
    have work : s.RxB := inv.work code
    have lawful := repMode_lawful s.cfg
    have ready : (repMode s.cfg).Ready s.p := ⟨sound.phase, work.pfx⟩
    obtain ⟨-, rfl⟩ | ⟨r, stepped, ended⟩ := exec_sRxB_next answers
    · exact inv
    have canonical := LineMode.step_lbuf_wf lawful stepped sound.lbufWf
    have data := LineMode.step_stored lawful stepped work.data
    obtain ⟨phase, further⟩ := ready.after_step lawful stepped
    obtain ⟨notTerm, rfl⟩ | ⟨-, rfl⟩ := ended
    · have onward : State.Sound { s with p := r.p, lbuf := r.lbuf } := sound.congr rfl rfl phase canonical sound.kind
      refine onward.inv (v := stRxB) code (by decide) (fun _ => cause) ?_
      exact State.RxB.mk (further notTerm).pfx data quiet
    · refine State.endLineB_inv sound cause phase canonical (eolReply_kind _ _) fun ok => ?_
      obtain ⟨byteErr, ovf⟩ := eolReply_ok ok
      exact data.line ovf byteErr
  | enc =>
    have cause := noCause (by rw [code]; decide)
    have work : s.Enc := inv.work code
    obtain ⟨f, t, inside, assembled, pushed, ended⟩ := exec_sEnc_next answers
    have after := sound.fifoPush (assembleFrame_wf sound.legal assembled) pushed
    have count := sound.fifo.fifoPush_count pushed
    obtain ⟨q, rfl⟩ : ∃ q, t = { s with fifo := q } := ⟨_, fifoPush_frame pushed⟩
    have count : q.count.toNat = s.fifo.count.toNat + 1 := count
    obtain ⟨-, rfl⟩ | ⟨more, rfl⟩ := ended
    · have left : State.Sound (State.setSt { s with fifo := q } stPollQ) :=
        after.congr rfl rfl sound.phase sound.lbufWf sound.kind
      exact left.inv (v := stPollQ) rfl (by decide) (fun _ => cause) trivial
    · have room := work.room
      have index : (BitVec.ofNat 16 (s.enc.k.toNat + 1)).toNat = s.enc.k.toNat + 1 := by
        have bound := s.enc.len.isLt
        have reach := frame_begins (k := s.enc.k.toNat + 1) sound.legal (lt_of_le_of_ne inside more)
        have pos := Nat.le_mul_of_pos_right (s.enc.k.toNat + 1) (pcap_pos sound.legal)
        exact toNat_half_of_le (by omega)
      have next : State.Sound { s with fifo := q, enc := { s.enc with k := BitVec.ofNat 16 (s.enc.k.toNat + 1) } } :=
        after.congr rfl rfl sound.phase sound.lbufWf sound.kind
      refine next.inv (v := stEnc) code (by decide) (fun _ => cause) (State.Enc.mk work.len ?_ ?_ work.bytes)
      · dsimp only
        omega
      · dsimp only
        omega
  | pollQ =>
    have cause := noCause (by rw [code]; decide)
    obtain ⟨-, rfl⟩ | ⟨f, t, popped, rfl⟩ := exec_sPollQ_next answers
    · exact (sameSound (t := s.setSt stPollB) rfl rfl rfl rfl rfl).inv (v := stPollB) rfl (by decide) (fun _ => cause) trivial
    · obtain ⟨after, wf⟩ := sound.fifoPop popped
      obtain ⟨-, len, data⟩ := Frame.wf_iff.mp wf
      obtain ⟨q, rfl⟩ : ∃ q, t = { s with fifo := q } := ⟨_, (fifoPop_frame popped).1⟩
      have latched : State.Sound
          (State.setSt { s with fifo := q, tx := { buf := some f.data, len := f.len, idx := 0 } } stTxB) :=
        after.congr rfl rfl sound.phase sound.lbufWf sound.kind
      exact latched.inv (v := stTxB) rfl (by decide) (fun _ => cause) (State.TxB.mk (Nat.zero_le _) len ⟨_, rfl, data⟩)
  | txB =>
    have cause := noCause (by rw [code]; decide)
    have work : s.TxB := inv.work code
    obtain rfl | ⟨-, -, rfl⟩ | ⟨-, some, rfl⟩ | ⟨more, rfl⟩ := exec_sTxB_next answers
    · exact inv
    · exact (sameSound (t := s.setSt stPollB) rfl rfl rfl rfl rfl).inv (v := stPollB) rfl (by decide) (fun _ => cause) trivial
    · exact (sameSound (t := State.setSt { s with thr := s.cfg.throttleCycles } stThrottle) rfl rfl rfl rfl rfl).inv
        (v := stThrottle) rfl (by decide) (fun _ => cause) some
    · have before : s.tx.idx.toNat < s.tx.len.toNat :=
        lt_of_le_of_ne work.index fun same => more (BitVec.eq_of_toNat_eq same)
      refine (sameSound (t := { s with tx := { s.tx with idx := s.tx.idx + 1 } }) rfl rfl rfl rfl rfl).inv (v := stTxB)
        code (by decide) (fun _ => cause) (State.TxB.mk ?_ work.len work.buf)
      rw [toNat_succ_of_lt before]
      exact before
  | throttle =>
    have cause := noCause (by rw [code]; decide)
    obtain ⟨-, rfl⟩ | ⟨more, rfl⟩ := exec_sThrottle_next answers
    · exact (sameSound (t := State.setSt { s with thr := 0 } stPollB) rfl rfl rfl rfl rfl).inv (v := stPollB) rfl (by decide)
        (fun _ => cause) trivial
    · refine (sameSound (t := { s with thr := s.thr - 1 }) rfl rfl rfl rfl rfl).inv (v := stThrottle) code
        (by decide) (fun _ => cause) ?_
      intro zero
      have count := toNat_pred_of_two_le more
      have vanished : (s.thr - 1).toNat = 0 := congrArg BitVec.toNat zero
      omega
  | txA =>
    have cause := noCause (by rw [code]; decide)
    have work : s.TxA := inv.work code
    obtain rfl | ⟨-, rfl⟩ | ⟨more, rfl⟩ := exec_sTxA_next answers
    · exact inv
    · exact (sameSound (t := s.setSt stPollA) rfl rfl rfl rfl rfl).inv (v := stPollA) rfl (by decide) (fun _ => cause) trivial
    · have before : s.tx.idx.toNat < s.tx.len.toNat :=
        lt_of_le_of_ne work.index fun same => more (BitVec.eq_of_toNat_eq same)
      refine (sameSound (t := { s with tx := { s.tx with idx := s.tx.idx + 1 } }) rfl rfl rfl rfl rfl).inv (v := stTxA)
        code (by decide) (fun _ => cause) (State.TxA.mk ?_ work.len work.bytes)
      rw [toNat_succ_of_lt before]
      exact before
  | stopClean | stopError =>
    cases answers
    exact inv.clearReport

/-- Settles O56, by the ways a step answers. -/
theorem everyStepKeepsTheInvariant : Obligations.EveryStepKeepsTheInvariant := by
  intro s t inv stepped
  have small := ((legalConfig_iff s.cfg).mp inv.legal).2.2.2.1
  have sound := inv.clearReport.sound
  cases (stepped_of_step stepped).2 with
  | reset => exact (doReset_inv inv.legal).after s 1
  | stop stops => exact (enterStop_inv inv.sound stops _ _).after s 1
  | sched named answers => exact (Names.next_inv (s := s.clearReport) named inv.clearReport rfl answers).after s 1
  | lineA wf polls admitted line =>
    refine State.Inv.after ?_ s _
    refine State.endLineA_inv sound (inv.cause (by rw [polls]; decide))
      (LineMode.run_line_phase (cmdMode_lawful s.cfg) wf line.run) (line.lbuf_wf inv.lbufWf) (CmdResult.outcome_kind _ _)
      (of_decide_eq_true admitted) fun isOk => ?_
    obtain ⟨payload, a, ok⟩ := (CmdResult.outcome_kind_eq_iff _ _).mp isOk
    obtain ⟨ndata, -, fits, -, held, -⟩ := line.accepted payload a ok
    exact lineStored_of_holds small ndata fits held
  | lineB wf polls line =>
    refine State.Inv.after ?_ s _
    refine State.endLineB_inv sound (inv.cause (by rw [polls]; decide))
      (LineMode.run_line_phase (repMode_lawful s.cfg) wf line.run) (line.lbuf_wf inv.lbufWf) (ReplyResult.outcome_kind _)
      fun isOk => ?_
    obtain ⟨bs, ok⟩ := (ReplyResult.outcome_kind_eq_iff _).mp isOk
    obtain ⟨ndata, fits, held, -⟩ := line.accepted bs ok
    exact lineStored_of_holds small ndata fits held

/-! No fault is reachable (R309). -/

/-- Every scheduler operation answers where the invariant holds. -/
theorem Names.answers {i : Instr} {s : State} (named : Names s.sch.st i) (inv : s.Inv) : ∃ u, exec i s = .next u := by
  have sound := inv.sound
  generalize code : s.sch.st = st at named
  cases named with
  | pollA | pollB | stopClean | stopError => exact ⟨_, rfl⟩
  | rxA =>
    have work : s.RxA := inv.work code
    have ready : (cmdMode s.cfg).Ready s.p := ⟨sound.phase, work.pfx⟩
    obtain ⟨r, stepped⟩ := ready.step_answers s.lbuf s.pins.aRxData
    cases offered : s.pins.aRxValid with
    | false => exact ⟨_, exec_sRxA_of_no_byte offered⟩
    | true =>
      cases out : r.out with
      | none => exact ⟨_, exec_sRxA_of_byte offered stepped out⟩
      | some o => exact ⟨_, exec_sRxA_of_end offered stepped out⟩
  | rxB =>
    have work : s.RxB := inv.work code
    have ready : (repMode s.cfg).Ready s.p := ⟨sound.phase, work.pfx⟩
    obtain ⟨r, stepped⟩ := ready.step_answers s.lbuf s.pins.bRxData
    cases offered : s.pins.bRxValid with
    | false => exact ⟨_, exec_sRxB_of_no_byte offered⟩
    | true =>
      cases out : r.out with
      | none => exact ⟨_, exec_sRxB_of_byte offered stepped out⟩
      | some o => exact ⟨_, exec_sRxB_of_end offered stepped out⟩
  | enc =>
    have work : s.Enc := inv.work code
    have inside := work.index
    have room := work.room
    obtain ⟨f, assembled⟩ := assembleFrame_answers (c := s.cfg) (e := s.enc) work.bytes s.enc.k.toNat
    obtain ⟨t, pushed⟩ := sound.fifo.fifoPush_answers f (by omega)
    exact ⟨_, exec_sEnc_of_push inside assembled pushed⟩
  | pollQ =>
    by_cases empty : s.fifo.count = 0
    · exact ⟨_, exec_sPollQ_of_empty empty⟩
    · obtain ⟨f, t, popped, -⟩ := sound.fifo.fifoPop_answers sound.frames empty
      exact ⟨_, exec_sPollQ_of_pop popped⟩
  | txB =>
    have work : s.TxB := inv.work code
    obtain ⟨d, buf, len⟩ := work.buf
    have fits := work.len
    obtain ⟨b, value⟩ := frameByte_isSome fun before => ⟨d, buf, by omega⟩
    exact ⟨_, exec_sTxB_of_byte value⟩
  | throttle =>
    have work : s.thr ≠ 0 := inv.work code
    by_cases one : s.thr = 1
    · exact ⟨_, exec_sThrottle_of_one one⟩
    · exact ⟨_, exec_sThrottle_of_more (by bv_omega)⟩
  | txA =>
    have work : s.TxA := inv.work code
    obtain ⟨b, value⟩ := replyByte_isSome fun before => work.bytes _ before
    exact ⟨_, exec_sTxA_of_byte value⟩

/-- Settles O57: reset, then the stop inputs, then the operation, which answers. -/
theorem invariantStatesAlwaysStep : Obligations.InvariantStatesAlwaysStep := by
  intro s inv
  have legal := inv.legal
  cases resetting : s.pins.rst with
  | true => exact ⟨_, step_of_reset legal resetting⟩
  | false =>
    by_cases performs : s.stopped = false → calm s.pins = true
    · obtain ⟨i, decoded⟩ := exists_decode_fetch inv.code
      obtain ⟨u, answers⟩ : ∃ u, exec i s.clearReport = .next u := by
        cases fetched_of_decode decoded with
        | sched named => exact Names.answers (s := s.clearReport) named inv.clearReport
        | lineA _ wf _ _ =>
          obtain ⟨r, -, answers⟩ := exec_lineInstrA (s := s.clearReport) legal wf
          exact ⟨_, answers⟩
        | lineB _ wf _ =>
          obtain ⟨r, -, answers⟩ := exec_lineInstrB (s := s.clearReport) legal wf
          exact ⟨_, answers⟩
      exact ⟨u.after s (instrCycles i), by rw [step_of_decoded legal resetting performs decoded, answers]; rfl⟩
    · obtain ⟨running, stops⟩ := Classical.not_imp.mp performs
      cases aErr : s.pins.aErr with
      | true => exact ⟨_, step_of_transport_failure legal resetting running (.inl aErr)⟩
      | false =>
        cases bErr : s.pins.bErr with
        | true => exact ⟨_, step_of_transport_failure legal resetting running (.inr bErr)⟩
        | false =>
          have cancel : s.pins.cancel = true := by
            by_contra none
            exact stops ((calm_iff _).mpr ⟨resetting, Bool.eq_false_iff.mpr none, aErr, bErr⟩)
          exact ⟨_, step_of_cancel legal resetting running aErr bErr cancel⟩

/-! The report is a pulse (R331). -/

/-- Only a line's last byte reports. -/
theorem Names.next_rpt {st : BitVec 4} {i : Instr} {s u : State} (named : Names st i) (notA : st ≠ stRxA) (notB : st ≠ stRxB)
    (quiet : s.rpt.valid = false) (answers : exec i s = .next u) : u.rpt.valid = false := by
  cases named with
  | pollA => obtain ⟨-, -, rfl⟩ | rfl := exec_sPollA_next answers <;> exact quiet
  | pollB => obtain rfl | rfl := exec_sPollB_next answers <;> exact quiet
  | rxA => exact absurd rfl notA
  | rxB => exact absurd rfl notB
  | enc =>
    obtain ⟨f, t, -, -, pushed, ended⟩ := exec_sEnc_next answers
    obtain ⟨-, -, rfl⟩ := fifoPush_ok pushed
    obtain ⟨-, rfl⟩ | ⟨-, rfl⟩ := ended <;> exact quiet
  | pollQ =>
    obtain ⟨-, rfl⟩ | ⟨f, t, popped, rfl⟩ := exec_sPollQ_next answers
    · exact quiet
    · obtain ⟨-, -, -, rfl⟩ := fifoPop_ok popped
      exact quiet
  | txB => obtain rfl | ⟨-, -, rfl⟩ | ⟨-, -, rfl⟩ | ⟨-, rfl⟩ := exec_sTxB_next answers <;> exact quiet
  | throttle => obtain ⟨-, rfl⟩ | ⟨-, rfl⟩ := exec_sThrottle_next answers <;> exact quiet
  | txA => obtain rfl | ⟨-, rfl⟩ | ⟨-, rfl⟩ := exec_sTxA_next answers <;> exact quiet
  | stopClean | stopError => cases answers; rfl

/-- Settles O60: a pending report means that no line is being read (the invariant's `pulse`). -/
theorem reportIsAOneCyclePulse : Obligations.ReportIsAOneCyclePulse := by
  intro s t inv stepped oneCycle valid
  obtain ⟨notA, notB⟩ := inv.pulse valid
  cases (stepped_of_step stepped).2 with
  | reset | stop => rfl
  | @sched i u named answers => exact Names.next_rpt (s := s.clearReport) (u := u) named notA notB rfl answers
  | lineA | lineB =>
    have long := Nat.add_left_cancel oneCycle
    omega

end Sys2Proof.Machine
end

section
/-! PROOFS. What no run reaches stops by name (R309): each operation's fault, by the register or the element that raises it. -/

namespace Sys2Proof.Machine

/-! The byte steps. -/

section ByteStep
variable {pfx : List Byte} {body : Parser → Memory → Byte → Half → ByteStep} {eol : Parser → LineOutcome} {p : Parser} {m : Memory}
  {b : Byte}

theorem byteStep_of_reserved (reserved : p.phase = 3) : byteStep pfx body eol p m b = .error .reservedPhase := by
  have notPfx : p.phase ≠ phPfx := reserved ▸ by decide
  have notBody : p.phase ≠ phBody := reserved ▸ by decide
  have notSkip : p.phase ≠ phSkip := reserved ▸ by decide
  rw [byteStep, if_neg notPfx, if_neg notBody, if_neg notSkip]

theorem byteStep_of_pfx_past (inPfx : p.phase = phPfx) (notTerm : b ≠ termByte) (past : pfx.length ≤ p.pfxI.toNat) :
    byteStep pfx body eol p m b = .error .indexOutOfRange := by
  have none : pfx[p.countByte.pfxI.toNat]? = none := List.getElem?_eq_none past
  rw [byteStep, if_pos inPfx, if_neg notTerm, pfxStep, none]

end ByteStep

theorem exec_sRxA_of_error {s : State} {e : Fault} (offered : s.pins.aRxValid = true)
    (failed : cmdStep s.cfg s.p s.lbuf s.pins.aRxData = .error e) : exec .sRxA s = .fault e := by
  simp only [exec, execSRxA, offered, failed]

theorem exec_sRxB_of_error {s : State} {e : Fault} (offered : s.pins.bRxValid = true)
    (failed : repStep s.cfg s.p s.lbuf s.pins.bRxData = .error e) : exec .sRxB s = .fault e := by
  simp only [exec, execSRxB, offered, failed]

/-! The frame encoder. -/

theorem readRange_of_no_value {m : Memory} {i n j : Nat} (above : i ≤ j) (below : j < i + n) (noValue : Store.read m j = none) :
    readRange m i n = .error .noValueRead := by
  cases read : readRange m i n with
  | error e => rw [readRange_error read]
  | ok bs =>
    have held := readRange_answers_iff.mp ⟨bs, read⟩ j above below
    rw [noValue] at held
    cases held

theorem assembleFrame_of_no_value {c : Config} {e : Encoder} {m : Memory} {k j : Nat} (above : k * pcap c ≤ j)
    (held : j < e.len.toNat) (below : j < (k + 1) * pcap c) (noValue : Store.read m j = none) :
    assembleFrame c e m k = .error .noValueRead := by
  rw [Nat.succ_mul] at below
  rw [assembleFrame, readRange_of_no_value above (by omega) noValue]

theorem fifoPush_of_past {s : State} (f : Frame) (room : s.fifo.count.toNat < s.cfg.fifoDepth)
    (past : s.cfg.fifoDepth ≤ s.fifo.wptr.toNat) : fifoPush s f = .error .indexOutOfRange := by
  rw [fifoPush, if_neg room.not_ge, if_pos past]

/-- A push that S_ENC makes of a readable payload faults as the push does. -/
theorem exec_sEnc_of_holds {s : State} {payload : List Byte} {e : Fault} (legal : legalConfig s.cfg = true)
    (len : payload.length = s.enc.len.toNat) (held : holds s.lbuf payload)
    (inside : s.enc.k.toNat < nframes s.cfg s.enc.len.toNat) (failed : ∀ f, fifoPush s f = .error e) :
    exec .sEnc s = .fault e :=
  exec_sEnc_of_push_error inside (assembleFrame_of_holds len held (len ▸ frame_begins legal inside)) (failed _)

/-! The transmit bytes. -/

theorem State.frameByte_of_no_buf {s : State} (before : s.tx.idx.toNat < s.tx.len.toNat) (noBuf : s.tx.buf = none) :
    s.frameByte = none := by
  rw [State.frameByte, if_pos before, noBuf]
  rfl

/-- Settles O58, clause by clause, from the name each operation faults by. -/
theorem unreachableRegistersFaultByName : Obligations.UnreachableRegistersFaultByName := by
  intro s
  refine ⟨?reservedA, ?reservedB, ?full, ?unreadable, ?noHead, ?noBuf, ?shortBuf, ?noReply, ?pfxA, ?pfxB, ?noFrame, ?rptr, ?wptr,
    ?pushPtr⟩
  case reservedA => exact fun reserved offered => exec_sRxA_of_error offered (byteStep_of_reserved reserved)
  case reservedB => exact fun reserved offered => exec_sRxB_of_error offered (byteStep_of_reserved reserved)
  case full =>
    exact fun payload legal len held inside full =>
      exec_sEnc_of_holds legal len held inside fun f => fifoPush_of_full f full
  case unreadable =>
    exact fun j legal inside above held below noValue =>
      exec_sEnc_of_unreadable inside (assembleFrame_of_no_value above held below noValue)
  case noHead =>
    intro held inside noValue
    have failed := fifoPop_of_no_value held inside noValue
    exact ⟨exec_sPollQ_of_error held failed, exec_fifoPop_of_error failed,
      fun g wptr => exec_fifoPushPop_of_error (fifoPushPop_of_no_value g held inside wptr noValue)⟩
  case noBuf => exact fun before noBuf => exec_sTxB_of_none (State.frameByte_of_no_buf before noBuf)
  case shortBuf =>
    exact fun d before buf short =>
      exec_sTxB_of_none ((State.frameByte_of_lt before buf).trans (List.getElem?_eq_none short))
  case noReply => exact fun before noValue => exec_sTxA_of_none ((State.replyByte_of_lt before).trans noValue)
  case pfxA =>
    exact fun inPfx past offered notTerm => exec_sRxA_of_error offered (byteStep_of_pfx_past inPfx notTerm past)
  case pfxB =>
    exact fun inPfx past offered notTerm =>
      exec_sRxB_of_error offered (byteStep_of_pfx_past inPfx notTerm (past ▸ le_rfl))
  case noFrame => exact exec_sEnc_of_past
  case rptr =>
    intro held past
    have failed := fifoPop_of_past held past
    exact ⟨exec_sPollQ_of_error held failed, exec_fifoPop_of_error failed,
      fun g => exec_fifoPushPop_of_error (fifoPushPop_of_past g held (.inl past))⟩
  case wptr => exact fun held past g => exec_fifoPushPop_of_error (fifoPushPop_of_past g held (.inr past))
  case pushPtr =>
    intro room past
    have failed (f : Frame) := fifoPush_of_past f room past
    exact ⟨fun f => exec_fifoPush_of_error (failed f),
      fun payload legal len held inside => exec_sEnc_of_holds legal len held inside failed⟩

end Sys2Proof.Machine
end
